-- ==== Sys2Proof/Word.lean ====
section
/-! DEFINITION. The word types of the block (rule R18): a byte, the 16-bit words of the CRC and the timer, the 6-bit
register address, and the symbols and replies of the radio interface (rules R25 and R311). -/

namespace Sys2Proof

/-- Every register, FIFO cell and bus datum is one byte (rules R18, R106). -/
abbrev Byte := BitVec 8

/-- The CRC, the timer reload value and the timer counter are 16 bits wide (rule R18). -/
abbrev Word16 := BitVec 16

/-- A register address: 64 addresses, 0x00 to 0x3F (rules R18, R31). -/
abbrev RegAddr := BitVec 6

/-- A received symbol (rule R25): `x` is a bit at which the receiver found a collision or no valid bit (R311). -/
inductive Sym where
  | zero
  | one
  | x
deriving DecidableEq, Repr, Inhabited

/-- One reply of FIELD (rule R311): at least one received symbol, kept as a first symbol and the rest, and the two
error marks that FIELD chooses freely. -/
structure Reply where
  first : Sym
  rest : List Sym
  parityErr : Bool
  protocolErr : Bool
deriving DecidableEq, Repr, Inhabited

/-- `r.syms` of rule R311, first received symbol first. -/
abbrev Reply.syms (r : Reply) : List Sym := r.first :: r.rest

end Sys2Proof
end

