-- ==== Sys2Proof/Syntax.lean ====
section
/-! DEFINITION. The host's operations, one constructor per row of spec/opcode_table.json (rules R140 to R158), and the
words they are written in (rule R158). The block has no instruction stream (rule R5): an instruction is one bus
transaction or one operation on a pin, issued by HOST. -/

namespace Sys2Proof

/-- A host operation as the table's word (rule R158): a 17-bit `BUS` word, or a 2-bit `PIN` word in a space of its
own. -/
inductive HostWord where
  | bus (w : BitVec 17)
  | pin (w : BitVec 2)
deriving DecidableEq, Repr, Inhabited

/-- The host's operations. Operand names are the field letters of the table: `r` is RcvOff, `c` a command code, `m` a
flag mask, `x` the ignored low bits of a strobe write, `a` an address or RxAlign, `l` TxLastBits, `k` the kind (true
for a write) and `d` the data byte. -/
inductive Instr where
  | rd (a : RegAddr)
  | wr (a : RegAddr) (d : Byte)
  | badAddr (k : Bool) (a : BitVec 7) (d : Byte)
  | badAddr6 (k : Bool) (a : BitVec 6) (d : Byte)
  | idle (r : Bool)
  | mem (r : Bool)
  | genRandId (r : Bool)
  | calcCrc (r : Bool)
  | transmit (r : Bool)
  | reserved5 (r : Bool)
  | reserved6 (r : Bool)
  | noCmdChange (r : Bool)
  | receive (r : Bool)
  | reserved9 (r : Bool)
  | reservedA (r : Bool)
  | reservedB (r : Bool)
  | transceive (r : Bool)
  | reservedD (r : Bool)
  | mfAuthent (r : Bool)
  | softReset (r : Bool)
  | powerDown (r : Bool) (c : BitVec 4)
  | irqSet (m : BitVec 7)
  | irqClear (m : BitVec 7)
  | divIrqSet (m : BitVec 7)
  | divIrqClear (m : BitVec 7)
  | fifoPush (d : Byte)
  | fifoPop
  | flushBuffer (x : BitVec 7)
  | tStopNow (x : BitVec 7)
  | tStartNow (x : BitVec 6)
  | startSend (a : BitVec 3) (l : BitVec 3)
  | assertReset
  | releaseReset
  | irqPin
deriving DecidableEq, Repr

end Sys2Proof
end

