-- ==== Sys2Proof/WellFormed.lean ====
section
/-! DEFINITION. When an instruction is one that the decoder can answer. Only the two plain rows RD and WR overlap rows
of their own (rule R152), so only they carry a check: a transaction that has a row of its own is that row's
instruction, not RD's or WR's. -/

namespace Sys2Proof

/-- No row but RD matches a read of `a`: a read of FIFODataReg is FIFO_POP (rule R152). -/
def plainRead (a : RegAddr) : Bool := a != 0x09

/-- No row but WR matches a write of `d` to `a` (rules R143 to R148, R152): CommandReg, ComIrqReg, DivIrqReg and
FIFODataReg have rows for every byte; FIFOLevelReg, ControlReg and BitFramingReg for the bytes whose strobe bits are
set. -/
def plainWrite (a : RegAddr) (d : Byte) : Bool :=
  a != 0x01 && a != 0x04 && a != 0x05 && a != 0x09
    && !(a == 0x0A && d.getLsbD 7)
    && !(a == 0x0C && (d.getLsbD 7 || d.getLsbD 6))
    && !(a == 0x0D && d.getLsbD 7)

/-- Well-formed: every operand is in its type's range, and RD and WR stand only for transactions without a row of
their own. -/
def Instr.wellFormed : Instr → Bool
  | .rd a => plainRead a
  | .wr a d => plainWrite a d
  | .badAddr _ _ _ => true
  | .badAddr6 _ _ _ => true
  | .idle _ => true
  | .mem _ => true
  | .genRandId _ => true
  | .calcCrc _ => true
  | .transmit _ => true
  | .reserved5 _ => true
  | .reserved6 _ => true
  | .noCmdChange _ => true
  | .receive _ => true
  | .reserved9 _ => true
  | .reservedA _ => true
  | .reservedB _ => true
  | .transceive _ => true
  | .reservedD _ => true
  | .mfAuthent _ => true
  | .softReset _ => true
  | .powerDown _ _ => true
  | .irqSet _ => true
  | .irqClear _ => true
  | .divIrqSet _ => true
  | .divIrqClear _ => true
  | .fifoPush _ => true
  | .fifoPop => true
  | .flushBuffer _ => true
  | .tStopNow _ => true
  | .tStartNow _ => true
  | .startSend _ _ => true
  | .assertReset => true
  | .releaseReset => true
  | .irqPin => true

end Sys2Proof
end

