-- ==== Sys2Proof/Decode.lean ====
section
/-! DEFINITION. Decoding (rules R152 and R158), total on every word and on any bytes, and after it the encoder, written
from the same formats (rules R140 to R148, R157, R158). The rows of spec/opcode_table.json stand here as data, so that
the decoder can be held against them. -/

namespace Sys2Proof

/-- Why a word or a byte string is no host operation. `unusedPinCode`: the PIN code 0b11 "is unused and has no row"
(rule R158). `badLength`: not the one byte of a PIN word nor the three bytes of a BUS word. -/
inductive DecodeError where
  | unusedPinCode
  | badLength
deriving DecidableEq, Repr

/-- The BUS word `(K << 16) | (A << 8) | D` of rule R158. -/
def busWord (k : Bool) (a d : Byte) : BitVec 17 := BitVec.ofBool k ++ a ++ d

/-- The 8-bit address carrier of a register address (rules R141, R158): bits 7:6 are 0. -/
def carrier (a : RegAddr) : Byte := 0#2 ++ a

/-- The `CMD` byte `00RPcccc` (rule R144). -/
def cmdByte (r p : Bool) (c : BitVec 4) : Byte := 0#2 ++ BitVec.ofBool r ++ BitVec.ofBool p ++ c

/-- The `BF` byte `SAAA0LLL` (rule R145). -/
def bfByte (s : Bool) (a l : BitVec 3) : Byte := BitVec.ofBool s ++ a ++ 0#1 ++ l

/-- The `IRQW` byte `(Set << 7) | M` (rule R146), and the `STROBE` byte of FIFOLevelReg and of TStopNow (rules R147,
R148): a top bit and seven bits below it. -/
def topByte (t : Bool) (m : BitVec 7) : Byte := BitVec.ofBool t ++ m

/-- A write to CommandReg selects its row by bit 4 and the code in bits 3:0 (rules R143, R144, R228); bits 7:6 are
ignored (rule R144). -/
def decodeCommand (d : Byte) : Instr :=
  let r := d.getLsbD 5
  let c := d.extractLsb' 0 4
  if d.getLsbD 4 then .powerDown r c
  else
    match c.toNat with
    | 0x0 => .idle r
    | 0x1 => .mem r
    | 0x2 => .genRandId r
    | 0x3 => .calcCrc r
    | 0x4 => .transmit r
    | 0x5 => .reserved5 r
    | 0x6 => .reserved6 r
    | 0x7 => .noCmdChange r
    | 0x8 => .receive r
    | 0x9 => .reserved9 r
    | 0xA => .reservedA r
    | 0xB => .reservedB r
    | 0xC => .transceive r
    | 0xD => .reservedD r
    | 0xE => .mfAuthent r
    | _ => .softReset r

/-- A write of `d` at register address `a` (rule R152): the row with the most mask bits that matches. -/
def decodeWrite (a : RegAddr) (d : Byte) : Instr :=
  if a = 0x01 then decodeCommand d
  else if a = 0x04 then
    if d.getLsbD 7 then .irqSet (d.extractLsb' 0 7) else .irqClear (d.extractLsb' 0 7)
  else if a = 0x05 then
    if d.getLsbD 7 then .divIrqSet (d.extractLsb' 0 7) else .divIrqClear (d.extractLsb' 0 7)
  else if a = 0x09 then .fifoPush d
  else if a = 0x0A ∧ d.getLsbD 7 = true then .flushBuffer (d.extractLsb' 0 7)
  else if a = 0x0C ∧ d.getLsbD 7 = true then .tStopNow (d.extractLsb' 0 7)
  else if a = 0x0C ∧ d.getLsbD 6 = true then .tStartNow (d.extractLsb' 0 6)
  else if a = 0x0D ∧ d.getLsbD 7 = true then .startSend (d.extractLsb' 4 3) (d.extractLsb' 0 3)
  else .wr a d

/-- A read at register address `a` (rule R152). The data bits of a read are no part of the decode (rule R158). -/
def decodeRead (a : RegAddr) : Instr := if a = 0x09 then .fifoPop else .rd a

/-- The transaction `(kind, carrier, data)` (rules R141, R152): every one decodes to exactly one row, the carriers of
0x40 and above to BAD_ADDR and BAD_ADDR_6. -/
def decodeBus (k : Bool) (a d : Byte) : Instr :=
  if a.getLsbD 7 then .badAddr k (a.extractLsb' 0 7) d
  else if a.getLsbD 6 then .badAddr6 k (a.extractLsb' 0 6) d
  else if k then decodeWrite (a.extractLsb' 0 6) d
  else decodeRead (a.extractLsb' 0 6)

/-- The PIN word (rules R157, R158). -/
def decodePin (w : BitVec 2) : Except DecodeError Instr :=
  match w.toNat with
  | 0 => .ok .assertReset
  | 1 => .ok .releaseReset
  | 2 => .ok .irqPin
  | _ => .error .unusedPinCode

/-- Decoding a host word: total, and a word that is no operation is rejected by name. -/
def decode : HostWord → Except DecodeError Instr
  | .bus w => .ok (decodeBus (w.getLsbD 16) (w.extractLsb' 8 8) (w.extractLsb' 0 8))
  | .pin w => decodePin w

/-- The encoder: the word of an instruction, from the formats of rules R141 and R144 to R148 and R157. -/
def encode : Instr → HostWord
  | .rd a => .bus (busWord false (carrier a) 0)
  | .wr a d => .bus (busWord true (carrier a) d)
  | .badAddr k a d => .bus (busWord k (topByte true a) d)
  | .badAddr6 k a d => .bus (busWord k (1#2 ++ a) d)
  | .idle r => .bus (busWord true 0x01 (cmdByte r false 0x0))
  | .mem r => .bus (busWord true 0x01 (cmdByte r false 0x1))
  | .genRandId r => .bus (busWord true 0x01 (cmdByte r false 0x2))
  | .calcCrc r => .bus (busWord true 0x01 (cmdByte r false 0x3))
  | .transmit r => .bus (busWord true 0x01 (cmdByte r false 0x4))
  | .reserved5 r => .bus (busWord true 0x01 (cmdByte r false 0x5))
  | .reserved6 r => .bus (busWord true 0x01 (cmdByte r false 0x6))
  | .noCmdChange r => .bus (busWord true 0x01 (cmdByte r false 0x7))
  | .receive r => .bus (busWord true 0x01 (cmdByte r false 0x8))
  | .reserved9 r => .bus (busWord true 0x01 (cmdByte r false 0x9))
  | .reservedA r => .bus (busWord true 0x01 (cmdByte r false 0xA))
  | .reservedB r => .bus (busWord true 0x01 (cmdByte r false 0xB))
  | .transceive r => .bus (busWord true 0x01 (cmdByte r false 0xC))
  | .reservedD r => .bus (busWord true 0x01 (cmdByte r false 0xD))
  | .mfAuthent r => .bus (busWord true 0x01 (cmdByte r false 0xE))
  | .softReset r => .bus (busWord true 0x01 (cmdByte r false 0xF))
  | .powerDown r c => .bus (busWord true 0x01 (cmdByte r true c))
  | .irqSet m => .bus (busWord true 0x04 (topByte true m))
  | .irqClear m => .bus (busWord true 0x04 (topByte false m))
  | .divIrqSet m => .bus (busWord true 0x05 (topByte true m))
  | .divIrqClear m => .bus (busWord true 0x05 (topByte false m))
  | .fifoPush d => .bus (busWord true 0x09 d)
  | .fifoPop => .bus (busWord false 0x09 0)
  | .flushBuffer x => .bus (busWord true 0x0A (topByte true x))
  | .tStopNow x => .bus (busWord true 0x0C (topByte true x))
  | .tStartNow x => .bus (busWord true 0x0C (1#2 ++ x))
  | .startSend a l => .bus (busWord true 0x0D (bfByte true a l))
  | .assertReset => .pin 0
  | .releaseReset => .pin 1
  | .irqPin => .pin 2

/-! ### Words as bytes -/

/-- The word of the table numbered with bit 0 the least significant bit of the first byte: at most 8 bits are a PIN
word, more are a BUS word (rule R158 keeps the two spaces apart by format). Bits above the word do not exist. -/
def tableHostWord (nbits w : Nat) : HostWord :=
  if nbits ≤ 8 then .pin (BitVec.ofNat 2 w) else .bus (BitVec.ofNat 17 w)

/-- The bytes of a host word, least significant byte first: one for a PIN word, three for a BUS word. The spec gives
the words no byte form; log entry 7 (DESIGN CHOICE). -/
def hostWordBytes : HostWord → List Byte
  | .pin w => [0#6 ++ w]
  | .bus w => [w.extractLsb' 0 8, w.extractLsb' 8 8, w.setWidth 24 |>.extractLsb' 16 8]

/-- Decoding any bytes: rejects by name what is no host word. -/
def decodeBytes : List Byte → Except DecodeError Instr
  | [b] => decode (.pin (b.extractLsb' 0 2))
  | [b0, b1, b2] => decode (.bus ((b2 ++ b1 ++ b0 : BitVec 24).extractLsb' 0 17))
  | _ => .error .badLength

/-- The instruction the decoder reads from an instruction of spec/opcode_table.json whose bits are `w`. -/
def decodeTableWord (nbits w : Nat) : Option Instr :=
  match decodeBytes (hostWordBytes (tableHostWord nbits w)) with
  | .ok i => some i
  | .error _ => none

/-! ### The opcode table (spec/opcode_table.json) as data -/

/-- A row of the table over words of `n` bits (rule R158). -/
structure Row (n : Nat) where
  mnemonic : String
  mask : BitVec n
  pattern : BitVec n
deriving DecidableEq, Repr

/-- "A row matches a word `w` when `w & mask = match`" (rule R158). -/
def rowMatches (n : Nat) (r : Row n) (w : BitVec n) : Bool := (w &&& r.mask) == r.pattern

/-- How many 1 bits a mask has (rule R152). -/
def maskOnes (n : Nat) (m : BitVec n) : Nat := (List.range n).countP fun k => m.getLsbD k

/-- The rows of format BUS. -/
def busAccessRows : List (Row 17) :=
  [⟨"RD", 0x1C000, 0x00000⟩,
   ⟨"WR", 0x1C000, 0x10000⟩,
   ⟨"BAD_ADDR", 0x08000, 0x08000⟩,
   ⟨"BAD_ADDR_6", 0x0C000, 0x04000⟩,
   ⟨"FIFO_PUSH", 0x1FF00, 0x10900⟩,
   ⟨"FIFO_POP", 0x1FF00, 0x00900⟩]

/-- The rows of format CMD (rule R144). -/
def commandRows : List (Row 17) :=
  [⟨"IDLE", 0x1FF1F, 0x10100⟩,
   ⟨"MEM", 0x1FF1F, 0x10101⟩,
   ⟨"GENRANDID", 0x1FF1F, 0x10102⟩,
   ⟨"CALCCRC", 0x1FF1F, 0x10103⟩,
   ⟨"TRANSMIT", 0x1FF1F, 0x10104⟩,
   ⟨"RESERVED_5", 0x1FF1F, 0x10105⟩,
   ⟨"RESERVED_6", 0x1FF1F, 0x10106⟩,
   ⟨"NOCMDCHANGE", 0x1FF1F, 0x10107⟩,
   ⟨"RECEIVE", 0x1FF1F, 0x10108⟩,
   ⟨"RESERVED_9", 0x1FF1F, 0x10109⟩,
   ⟨"RESERVED_A", 0x1FF1F, 0x1010A⟩,
   ⟨"RESERVED_B", 0x1FF1F, 0x1010B⟩,
   ⟨"TRANSCEIVE", 0x1FF1F, 0x1010C⟩,
   ⟨"RESERVED_D", 0x1FF1F, 0x1010D⟩,
   ⟨"MFAUTHENT", 0x1FF1F, 0x1010E⟩,
   ⟨"SOFTRESET", 0x1FF1F, 0x1010F⟩,
   ⟨"POWERDOWN", 0x1FF10, 0x10110⟩]

/-- The rows of formats IRQW, STROBE and BF (rules R145 to R148). -/
def actionRows : List (Row 17) :=
  [⟨"IRQ_SET", 0x1FF80, 0x10480⟩,
   ⟨"IRQ_CLEAR", 0x1FF80, 0x10400⟩,
   ⟨"DIVIRQ_SET", 0x1FF80, 0x10580⟩,
   ⟨"DIVIRQ_CLEAR", 0x1FF80, 0x10500⟩,
   ⟨"FLUSHBUFFER", 0x1FF80, 0x10A80⟩,
   ⟨"TSTOPNOW", 0x1FF80, 0x10C80⟩,
   ⟨"TSTARTNOW", 0x1FFC0, 0x10C40⟩,
   ⟨"STARTSEND", 0x1FF80, 0x10D80⟩]

/-- Every row over the 17-bit words. -/
def busRows : List (Row 17) := busAccessRows ++ commandRows ++ actionRows

/-- The rows of format PIN. -/
def pinRows : List (Row 2) :=
  [⟨"ASSERT_RESET", 0x3, 0x0⟩,
   ⟨"RELEASE_RESET", 0x3, 0x1⟩,
   ⟨"IRQPIN", 0x3, 0x2⟩]

/-- The row of an instruction, letter for letter as the table spells it. -/
def mnemonicOf : Instr → String
  | .rd _ => "RD"
  | .wr _ _ => "WR"
  | .badAddr _ _ _ => "BAD_ADDR"
  | .badAddr6 _ _ _ => "BAD_ADDR_6"
  | .idle _ => "IDLE"
  | .mem _ => "MEM"
  | .genRandId _ => "GENRANDID"
  | .calcCrc _ => "CALCCRC"
  | .transmit _ => "TRANSMIT"
  | .reserved5 _ => "RESERVED_5"
  | .reserved6 _ => "RESERVED_6"
  | .noCmdChange _ => "NOCMDCHANGE"
  | .receive _ => "RECEIVE"
  | .reserved9 _ => "RESERVED_9"
  | .reservedA _ => "RESERVED_A"
  | .reservedB _ => "RESERVED_B"
  | .transceive _ => "TRANSCEIVE"
  | .reservedD _ => "RESERVED_D"
  | .mfAuthent _ => "MFAUTHENT"
  | .softReset _ => "SOFTRESET"
  | .powerDown _ _ => "POWERDOWN"
  | .irqSet _ => "IRQ_SET"
  | .irqClear _ => "IRQ_CLEAR"
  | .divIrqSet _ => "DIVIRQ_SET"
  | .divIrqClear _ => "DIVIRQ_CLEAR"
  | .fifoPush _ => "FIFO_PUSH"
  | .fifoPop => "FIFO_POP"
  | .flushBuffer _ => "FLUSHBUFFER"
  | .tStopNow _ => "TSTOPNOW"
  | .tStartNow _ => "TSTARTNOW"
  | .startSend _ _ => "STARTSEND"
  | .assertReset => "ASSERT_RESET"
  | .releaseReset => "RELEASE_RESET"
  | .irqPin => "IRQPIN"

/-! ### The transports' byte forms (rule R142), for information: no rule of the model depends on them -/

/-- The SPI form of a transaction: the address byte `(READ ? 0x80 : 0x00) | (addr << 1)`, then the data of a write, or
the 0x00 the host sends during a read. -/
def spiBytes (k : Bool) (a : RegAddr) (d : Byte) : List Byte :=
  [BitVec.ofBool (!k) ++ a ++ 0#1, if k then d else 0]

/-- The UART form: the address byte `(READ ? 0x80 : 0x00) | addr` with bit 6 = 0, then the data of a write. -/
def uartBytes (k : Bool) (a : RegAddr) (d : Byte) : List Byte :=
  (BitVec.ofBool (!k) ++ 0#1 ++ a) :: if k then [d] else []

end Sys2Proof
end

