-- ==== Sys2Proof/Config.lean ====
section
/-! DEFINITION. What is fixed for one chip (the parameters of rules R10 to R20 and R80), and the free values: constants
with no body, which nothing in Lean can evaluate. The register map REGMAP (rule R10) is the table `regAt` of
Machine/Operands.lean. -/

namespace Sys2Proof

/-- The atomic steps of ENGINE and FIELD (rule R104): `crcByte` R254, `crcDone` R256, `tx` R310 (FIELD's choice of a
reply is part of it, R300), `rx` R314, `timerExpire` R427, `overheat` R409, `resetDone` R225, `wakeDone` R228. -/
inductive EngineStep where
  | crcByte
  | crcDone
  | tx
  | rx
  | timerExpire
  | overheat
  | resetDone
  | wakeDone
deriving DecidableEq, Repr, Inhabited

/-- Which agent moves next (rules R9, R104): HOST makes its next operation, or ENGINE makes the named step. -/
inductive Move where
  | host
  | engine (e : EngineStep)
deriving DecidableEq, Repr, Inhabited

/-- Where a collision position counts from (rule R14). -/
inductive CollPosOrigin where
  | grid
  | frame
deriving DecidableEq, Repr, Inhabited

/-- The values that RESET_VALUE (rule R19) gives, for the entries of rule R31 and the fields of rule R74 that are not
`draw`. -/
structure ResetValues where
  rcvOff : Bool
  comIEn : Byte
  divIEn : Byte
  comIrq : BitVec 7
  err : Byte
  waterLevel : BitVec 6
  bitFraming : Byte
  rxLastBits : BitVec 3
  valuesAfterColl : Bool
  collPosNotValid : Bool
  mode : Byte
  txMode : Byte
  rxMode : Byte
  txControl : Byte
  txASK : Byte
  crc : Word16
  crcResult : Word16
  crcReady : Bool
  tMode : Byte
  tPrescaler : BitVec 12
  tReload : Word16
deriving DecidableEq, Repr

namespace Config

/-- `draw()` (rule R24): the free value of width `w` that is drawn when the draw counter stands at `n`. It has no
body: every claim holds for every value of it. Log entry 2. -/
opaque freeBits (w n : Nat) : BitVec w

/-- FIELD's free choice (rules R9, R311) where no choice stands ready in `State.field`. Log entry 3. -/
opaque freeReply (n : Nat) : Option Reply

/-- The free choice of the agent that moves next (rule R104) where `State.sched` names none. Log entry 4. -/
opaque freeMove (n : Nat) : Move

/-- The free choice of the ENGINE steps that come before the next bus transaction of a driver run (rule R104) where
`State.sched` names none. Log entry 4. -/
opaque freeEngineRun (n : Nat) : List EngineStep

/-- The free value of one read of CANCEL (rule R70) where no value stands ready in `State.cancels`. Log entry 5. -/
opaque freeCancel (n : Nat) : Bool

/-- VERSION_BYTE (rule R20), left OPEN. -/
opaque versionByte : Byte

/-- CRC_POLL_BUDGET less 1 (rule R12), left OPEN. -/
opaque crcPollExtra : Nat

/-- CRC_POLL_BUDGET (rule R12): an integer of at least 1. -/
def crcPollBudget : Nat := crcPollExtra + 1

/-- RESET_POLL_BUDGET less 1 (rule R80), left OPEN. -/
opaque resetPollExtra : Nat

/-- RESET_POLL_BUDGET (rule R80): an integer of at least 1. -/
def resetPollBudget : Nat := resetPollExtra + 1

/-- What WAIT_BUDGET adds at each further expected byte (rule R13), left OPEN. -/
opaque waitExtra (n : Nat) : Nat

/-- WAIT_BUDGET(n) (rule R13): total, at least 1 and non-decreasing; every such function has this form. -/
def waitBudget : Nat → Nat
  | 0 => waitExtra 0 + 1
  | n + 1 => waitBudget n + waitExtra (n + 1)

/-- FIFO_DEPTH (rule R11), at its default. -/
def fifoDepth : Nat := 64

/-- COLLPOS_ORIGIN (rule R14), at its default. Log entry 6. -/
def collPosOrigin : CollPosOrigin := .grid

/-- The default of ALLOW_OVERHEAT (rule R15): the value at reset of `State.allowOverheat`, which holds the parameter. Log
entry 6. -/
def allowOverheat : Bool := true

/-- F_CLK in hertz (rule R16). No rule of the model depends on it. -/
def fClk : Nat := 13560000

/-- RESET_VALUE (rule R19): the column "model reset" of rule R31 and the values of rules R37 to R60 and R74. -/
def resetValues : ResetValues where
  rcvOff := true
  comIEn := 0x80
  divIEn := 0x00
  comIrq := 0x14
  err := 0x00
  waterLevel := 0x08
  bitFraming := 0x00
  rxLastBits := 0
  valuesAfterColl := true
  collPosNotValid := true
  mode := 0x3F
  txMode := 0x00
  rxMode := 0x00
  txControl := 0x80
  txASK := 0x00
  crc := 0xFFFF
  crcResult := 0xFFFF
  crcReady := true
  tMode := 0x00
  tPrescaler := 0x000
  tReload := 0x0000

end Config

end Sys2Proof
end

