-- ==== Sys2Proof/Machine/State.lean ====
section
/-! DEFINITION. The state record `S` of rule R30 as plain data, with the model's own fields beside it (what the bus and
the pin last answered to HOST, the draw counter, and the inputs of the agents), and the state after reset. -/

namespace Sys2Proof.Machine

open Sys2Proof

/-- The active command `S.cmd` (rules R36, R37): of the codes of rule R143 only these four ever become active. -/
inductive Cmd where
  | idle
  | calcCrc
  | transceive
  | softReset
deriving DecidableEq, Repr, Inhabited

/-- The transceiver phase `S.modem` (rule R63). -/
inductive Modem where
  | idle
  | waitStart
  | waitData
deriving DecidableEq, Repr, Inhabited

/-- The two chip resets (rules R501, R225). -/
inductive ResetKind where
  | hard
  | soft
deriving DecidableEq, Repr, Inhabited

/-- The reasons of a refusal: the full list of rule R403, in its order. -/
inductive RefuseReason where
  | addressOutOfRange
  | busAccessInHardPowerDown
  | commandWhilePoweredDown
  | commandWithPowerDown
  | reservedCommand
  | commandOutsideTheBlock
  | crcWithMsbFirst
  | radioConfigurationOutsideTheModel
  | transmitWithEmptyFifo
  | timerGated
deriving DecidableEq, Repr, Inhabited

/-- An event of the history `S.hist` (rule R71). -/
inductive Event where
  | tx (frame : List Bool)
  | rx (r : Reply)
  | timerExpire
  | crcByte (b : Byte)
  | overheat
  | reset (k : ResetKind)
  | refused (r : RefuseReason)
deriving DecidableEq, Repr, Inhabited

/-- Stored bytes by address, in one canonical form: addresses strictly rising. An unlisted address reads as a fresh
free value (rule R35), so no entry equals what an unlisted address reads as. -/
abbrev Memory := List Host.Cell

/-- The canonical form of a memory: addresses strictly rising. -/
def Memory.wf : Memory → Bool
  | [] => true
  | [_] => true
  | c :: c' :: m => decide (c.1 < c'.1) && Memory.wf (c' :: m)

/-- The state of the machine. The first part is the record `S` of rule R30 (and the two stored bits of Status2Reg,
rule R44). The last part, from `busOut` on, is the model's own: log entries 2 to 5 and 8. -/
structure State where
  /-- The active command (R36, R37). -/
  cmd : Cmd
  /-- CommandReg.RcvOff (R37, R318). -/
  rcvOff : Bool
  /-- Soft power-down (R37, R228). -/
  powerDown : Bool
  /-- A reset or a wake-up is in progress (R65). -/
  pdBusy : Bool
  /-- ComIEnReg (R38). -/
  comIEn : Byte
  /-- DivIEnReg (R39). -/
  divIEn : Byte
  /-- The request flags of ComIrqReg, bits 6:0 (R40). -/
  comIrq : BitVec 7
  /-- DivIrqReg.MfinActIRq (R41). -/
  mfinActIrq : Bool
  /-- DivIrqReg.CRCIRq (R41). -/
  crcIrq : Bool
  /-- ErrorReg (R42). -/
  err : Byte
  /-- The FIFO, oldest byte first (R45). -/
  fifo : List Byte
  /-- WaterLevelReg.WaterLevel (R47). -/
  waterLevel : BitVec 6
  /-- BitFramingReg.StartSend (R49). -/
  startSend : Bool
  /-- BitFramingReg.RxAlign (R49). -/
  rxAlign : BitVec 3
  /-- BitFramingReg.TxLastBits (R49). -/
  txLastBits : BitVec 3
  /-- ControlReg.RxLastBits (R48). -/
  rxLastBits : BitVec 3
  /-- CollReg.ValuesAfterColl (R50). -/
  valuesAfterColl : Bool
  /-- CollReg.CollPosNotValid (R50). -/
  collPosNotValid : Bool
  /-- CollReg.CollPos (R50). -/
  collPos : BitVec 5
  /-- ModeReg (R51). -/
  mode : Byte
  /-- TxModeReg (R52). -/
  txMode : Byte
  /-- RxModeReg (R53). -/
  rxMode : Byte
  /-- TxControlReg (R54). -/
  txControl : Byte
  /-- TxASKReg (R55). -/
  txASK : Byte
  /-- Status2Reg.TempSensClear (R44). -/
  tempSensClear : Bool
  /-- Status2Reg.I2CForceHS (R44). -/
  i2cForceHS : Bool
  /-- The CRC coprocessor's shift register (R62). -/
  crc : Word16
  /-- CRCResultRegH and CRCResultRegL (R56). -/
  crcResult : Word16
  /-- The coprocessor has processed every byte offered to it (R62). -/
  crcReady : Bool
  /-- TModeReg (R57). -/
  tMode : Byte
  /-- The prescaler: bits 11:8 from TModeReg, bits 7:0 TPrescalerReg (R57, R58). -/
  tPrescaler : BitVec 12
  /-- TReloadRegH and TReloadRegL (R59). -/
  tReload : Word16
  /-- The timer counter (R60, R66). -/
  tCounter : Word16
  /-- The timer runs (R66). -/
  tRunning : Bool
  /-- The transceiver phase (R63). -/
  modem : Modem
  /-- A pending transmit request (R76). -/
  txReq : Bool
  /-- The reply FIELD has chosen and ENGINE has not yet received (R64). -/
  pendingResp : Option Reply
  /-- The bytes written to registers outside the block since the last reset (R35). -/
  other : Memory
  /-- The level of the reset input: false while the reset is asserted (R68). -/
  nrst : Bool
  /-- The sticky refusal mark, with its reason (R69). -/
  refused : Option RefuseReason
  /-- The event history, oldest first (R71). -/
  hist : List Event
  /-- The model's own: the byte the last bus read returned to HOST (R200). -/
  busOut : Byte
  /-- The model's own: what the last `pollInterruptAsserted()` returned to HOST (R209). -/
  pinOut : Bool
  /-- The model's own: how many free values have been drawn (R24). -/
  draws : Nat
  /-- The model's own: the operations HOST has yet to issue, oldest first (R9). -/
  hostOps : List HostWord
  /-- The model's own: the moves the interleaving of rule R104 makes next. -/
  sched : List Move
  /-- The model's own: the choices FIELD makes at the next transmissions (R311). -/
  field : List (Option Reply)
  /-- The model's own: the values of the next reads of CANCEL (R70). -/
  cancels : List Bool
  /-- The model's own: the parameter ALLOW_OVERHEAT (R15), fixed for a run: no step changes it. A claim takes either value
  as a named premise (log entry 6). -/
  allowOverheat : Bool
deriving DecidableEq, Repr

/-- Why a step stops with a fault. -/
inductive Fault where
  /-- Raised by `step`, never by a meaning, in a state that carries the refusal mark: "Any step after a refusal: stuck:
  the refusal is sticky" (spec/93_implementation_defined.md U41, rule R69). Safe: the machine stops, so nothing can be
  proved of a run past a refusal. -/
  | stuckAfterRefusal (r : RefuseReason)
deriving DecidableEq, Repr

/-- Why a step has no meaning. -/
inductive Refusal where
  /-- Raised by an arm of `exec` that has no meaning yet. No arm of this model does. Safe. -/
  | notModelled (mnemonic : String)
  /-- Raised by `step` on the PIN word 0b11, which "is unused and has no row" (rule R158). Safe. -/
  | unusedPinCode
deriving DecidableEq, Repr

/-- The machine right after power-on, which "is the same as a release of the reset pin" (rule R501): every register
and every hidden field at its reset value (rules R31, R73, R74), `pdBusy` until WAKE_DONE, and the two `draw` entries
(CollPos, the timer counter) drawn. The model's own fields: log entry 8. -/
def State.reset : State where
  cmd := .idle
  rcvOff := Config.resetValues.rcvOff
  powerDown := false
  pdBusy := true
  comIEn := Config.resetValues.comIEn
  divIEn := Config.resetValues.divIEn
  comIrq := Config.resetValues.comIrq
  mfinActIrq := false
  crcIrq := false
  err := Config.resetValues.err
  fifo := []
  waterLevel := Config.resetValues.waterLevel
  startSend := Config.resetValues.bitFraming.getLsbD 7
  rxAlign := Config.resetValues.bitFraming.extractLsb' 4 3
  txLastBits := Config.resetValues.bitFraming.extractLsb' 0 3
  rxLastBits := Config.resetValues.rxLastBits
  valuesAfterColl := Config.resetValues.valuesAfterColl
  collPosNotValid := Config.resetValues.collPosNotValid
  collPos := Config.freeBits 5 0
  mode := Config.resetValues.mode
  txMode := Config.resetValues.txMode
  rxMode := Config.resetValues.rxMode
  txControl := Config.resetValues.txControl
  txASK := Config.resetValues.txASK
  tempSensClear := false
  i2cForceHS := false
  crc := Config.resetValues.crc
  crcResult := Config.resetValues.crcResult
  crcReady := Config.resetValues.crcReady
  tMode := Config.resetValues.tMode
  tPrescaler := Config.resetValues.tPrescaler
  tReload := Config.resetValues.tReload
  tCounter := Config.freeBits 16 1
  tRunning := false
  modem := .idle
  txReq := false
  pendingResp := none
  other := []
  nrst := true
  refused := none
  hist := [.reset .hard]
  busOut := 0
  pinOut := false
  draws := 2
  hostOps := []
  sched := []
  field := []
  cancels := []
  allowOverheat := Config.allowOverheat

end Sys2Proof.Machine
end

