-- ==== Sys2Proof/Machine/Ops.lean ====
section
/-! DEFINITION. The named operations the meanings are written over: drawing free values, the event history, the refusal
(the one thing this block does in place of an exception: it has no trap, no saved state and no return, rules R402, R420
and R421), the sparse byte memory, and the chip reset. -/

namespace Sys2Proof.Machine

open Sys2Proof

/-- The draw counter after `k` further draws. -/
def bumpDraws (k : Nat) (s : State) : State := { s with draws := s.draws + k }

/-- ENGINE appends an event to `S.hist` (rule R71). -/
def logEvent (e : Event) (s : State) : State := { s with hist := s.hist ++ [e] }

/-- `refuse(reason)` (rules R24, R69, R403): sets the sticky mark for good, records the reason, and appends
`Refused(reason)` to the history. The mark keeps the first reason. -/
def refuse (r : RefuseReason) (s : State) : State :=
  logEvent (.refused r) { s with refused := s.refused.or (some r) }

/-! ### Bytes by address (rule R35) -/

/-- The byte stored at an address, if one is. -/
def memRead : Memory → Nat → Option Byte
  | [], _ => none
  | (b, w) :: m, a => if b = a then some w else memRead m a

/-- Storing a byte keeps the addresses strictly rising. -/
def memWrite : Memory → Nat → Byte → Memory
  | [], a, v => [(a, v)]
  | (b, w) :: m, a, v =>
    if a < b then (a, v) :: (b, w) :: m
    else if a = b then (a, v) :: m
    else (b, w) :: memWrite m a v

/-! ### Bits of a stored byte -/

/-- A write that stores only the bits of `mask`; the others ignore it (rule R34). -/
def storeBits (mask old v : Byte) : Byte := (old &&& ~~~mask) ||| (v &&& mask)

/-- A read in which the bits of `mask` are drawn (rule R34): `d` is the free byte. -/
def drawBitsIn (mask d v : Byte) : Byte := (v &&& ~~~mask) ||| (d &&& mask)

/-- The high byte of a two-register value (rule R101). -/
def highByte (w : Word16) : Byte := w.extractLsb' 8 8

/-- The low byte of a two-register value (rule R101). -/
def lowByte (w : Word16) : Byte := w.extractLsb' 0 8

/-! ### The chip reset -/

/-- Every register and every hidden field takes its reset value (rules R73, R74), with the `draw` entries drawn afresh;
`S.refused` and `S.hist` keep their values (rule R74), and so does what is not the chip's: the reset input, what HOST
was last answered, and the agents' inputs. `pdBusy` is 1 "until the reset-completion step". -/
def chipReset (s : State) : State :=
  { State.reset with
    collPos := Config.freeBits 5 s.draws
    tCounter := Config.freeBits 16 (s.draws + 1)
    nrst := s.nrst
    refused := s.refused
    hist := s.hist
    busOut := s.busOut
    pinOut := s.pinOut
    draws := s.draws + 2
    hostOps := s.hostOps
    sched := s.sched
    field := s.field
    cancels := s.cancels
    allowOverheat := s.allowOverheat }

/-! ### What HOST is answered -/

/-- A bus read returns the byte `v` to HOST (rule R200). Every bus read spends one draw, whether or not the byte has
drawn bits. -/
def answer (v : Byte) (s : State) : State := { s with busOut := v, draws := s.draws + 1 }

end Sys2Proof.Machine
end

