-- ==== Sys2Proof/Machine/Flags.lean ====
section
/-! DEFINITION. The flags of the block (rule R72): the request flags of ComIrqReg, the error flags of ErrorReg, the FIFO
alerts, the computed status flags, and the interrupt line. The block has no arithmetic condition codes. -/

namespace Sys2Proof.Machine

open Sys2Proof

/-! ### Request flags of ComIrqReg (rule R40) -/

abbrev txIRq : BitVec 7 := 0x40
abbrev rxIRq : BitVec 7 := 0x20
abbrev idleIRq : BitVec 7 := 0x10
abbrev hiAlertIRq : BitVec 7 := 0x08
abbrev loAlertIRq : BitVec 7 := 0x04
abbrev errIRq : BitVec 7 := 0x02
abbrev timerIRq : BitVec 7 := 0x01

/-- ENGINE sets request flags and never clears them (rule R40). -/
def raiseCom (m : BitVec 7) (s : State) : State := { s with comIrq := s.comIrq ||| m }

/-! ### Error flags of ErrorReg (rule R42) -/

abbrev wrErr : Byte := 0x80
abbrev tempErr : Byte := 0x40
abbrev bufferOvfl : Byte := 0x10
abbrev collErr : Byte := 0x08
abbrev crcErr : Byte := 0x04
abbrev parityErr : Byte := 0x02
abbrev protocolErr : Byte := 0x01

/-- `seterr(F)` (rules R405, R410): sets the flag and ErrIRq, "also when `S.err.F` was already 1". -/
def setErr (m : Byte) (s : State) : State :=
  { s with err := s.err ||| m, comIrq := s.comIrq ||| errIRq }

/-- Clearing error flags leaves ErrIRq as it is (rules R410, R412). -/
def clearErr (m : Byte) (s : State) : State := { s with err := s.err &&& ~~~m }

/-! ### FIFO alerts (rules R43, R112) -/

/-- Status1Reg.HiAlert (rule R43). -/
def hiAlert (s : State) : Bool := decide (Config.fifoDepth - s.fifo.length ≤ s.waterLevel.toNat)

/-- Status1Reg.LoAlert (rule R43). -/
def loAlert (s : State) : Bool := decide (s.fifo.length ≤ s.waterLevel.toNat)

/-- The request flags that the rise of an alert sets (rule R112). A reception, in which the FIFO only grows, sets HiAlertIRq
alone: DEDUCED, against rule R419, log entry 23. -/
def risenAlerts (old new : State) : BitVec 7 :=
  (if !hiAlert old && hiAlert new then hiAlertIRq else 0)
    ||| (if !loAlert old && loAlert new then loAlertIRq else 0)

/-- After a change of the FIFO or of the water level, from `old` to `new`, an alert that "went from 0 to 1" sets its
request flag (rule R112). -/
def withAlerts (old new : State) : State := raiseCom (risenAlerts old new) new

/-! ### Computed status and the interrupt line -/

/-- Status1Reg.IRq: some enabled request flag is set (rules R43, R416, R418). -/
def irqActive (s : State) : Bool :=
  (s.comIEn.extractLsb' 0 7 &&& s.comIrq) != 0
    || (s.divIEn.getLsbD 4 && s.mfinActIrq) || (s.divIEn.getLsbD 2 && s.crcIrq)

/-- The electrical level of the IRQ output (rule R67). -/
def irqPinLevel (s : State) : Bool := irqActive s ^^ s.comIEn.getLsbD 7

/-- Status1Reg.CRCOk (rules R43, R259). -/
def crcOk (s : State) : Bool := s.crcReady && s.crc == 0

/-- The antenna drivers are both on: `S.txControl[1:0] = 0b11` (rule R54). -/
def antennaOn (s : State) : Bool := s.txControl.extractLsb' 0 2 == 0b11#2

/-- The RF field is there: the antenna is on and the chip is in neither power-down (rules R312, R432, R500). -/
def fieldOn (s : State) : Bool := antennaOn s && !s.powerDown && s.nrst

end Sys2Proof.Machine
end

