-- ==== Sys2Proof/Machine/Operands.lean ====
section
/-! DEFINITION. Operand forms: the register map REGMAP (rules R10, R31) with each register's reserved bits (rules R34 to
R61), the codes of the command field (rule R143) and of the modem state (rule R63), and the byte a register shows
(rule R202). -/

namespace Sys2Proof.Machine

open Sys2Proof

/-- The registers of rule R31 that the block in scope reads or writes, VersionReg, and two kinds for the rest: a
register outside the block, and a reserved address. -/
inductive Reg where
  | command
  | comIEn
  | divIEn
  | comIrq
  | divIrq
  | error
  | status1
  | status2
  | fifoData
  | fifoLevel
  | waterLevel
  | control
  | bitFraming
  | coll
  | mode
  | txMode
  | rxMode
  | txControl
  | txASK
  | crcResultH
  | crcResultL
  | tMode
  | tPrescaler
  | tReloadH
  | tReloadL
  | tCounterH
  | tCounterL
  | version
  | outside
  | outsideReadOnly
  | reserved
deriving DecidableEq, Repr

/-- REGMAP (rule R31). Outside the block, in the order of their addresses: TxSelReg, RxSelReg, RxThresholdReg,
DemodReg, MfTxReg, MfRxReg, SerialSpeedReg, ModWidthReg, RFCfgReg, GsNReg, CWGsPReg, ModGsPReg, TestSel1Reg,
TestSel2Reg, TestPinEnReg, TestPinValueReg, AutoTestReg, AnalogTestReg, TestDAC1Reg and TestDAC2Reg, which can be
written, and TestBusReg (0x35) and TestADCReg (0x3B), which cannot (rules R33, R34, R201): DEDUCED, against rule R35, log
entry 22. -/
def regAt (a : RegAddr) : Reg :=
  match a.toNat with
  | 0x01 => .command
  | 0x02 => .comIEn
  | 0x03 => .divIEn
  | 0x04 => .comIrq
  | 0x05 => .divIrq
  | 0x06 => .error
  | 0x07 => .status1
  | 0x08 => .status2
  | 0x09 => .fifoData
  | 0x0A => .fifoLevel
  | 0x0B => .waterLevel
  | 0x0C => .control
  | 0x0D => .bitFraming
  | 0x0E => .coll
  | 0x11 => .mode
  | 0x12 => .txMode
  | 0x13 => .rxMode
  | 0x14 => .txControl
  | 0x15 => .txASK
  | 0x16 | 0x17 | 0x18 | 0x19 | 0x1C | 0x1D | 0x1F => .outside
  | 0x21 => .crcResultH
  | 0x22 => .crcResultL
  | 0x24 | 0x26 | 0x27 | 0x28 | 0x29 => .outside
  | 0x2A => .tMode
  | 0x2B => .tPrescaler
  | 0x2C => .tReloadH
  | 0x2D => .tReloadL
  | 0x2E => .tCounterH
  | 0x2F => .tCounterL
  | 0x31 | 0x32 | 0x33 | 0x34 | 0x36 | 0x38 | 0x39 | 0x3A => .outside
  | 0x35 | 0x3B => .outsideReadOnly
  | 0x37 => .version
  | _ => .reserved

/-! ### Register addresses the driver names (rule R31) -/

abbrev commandReg : RegAddr := 0x01
abbrev comIrqReg : RegAddr := 0x04
abbrev divIrqReg : RegAddr := 0x05
abbrev errorReg : RegAddr := 0x06
abbrev fifoDataReg : RegAddr := 0x09
abbrev fifoLevelReg : RegAddr := 0x0A
abbrev controlReg : RegAddr := 0x0C
abbrev bitFramingReg : RegAddr := 0x0D
abbrev collReg : RegAddr := 0x0E
abbrev modeReg : RegAddr := 0x11
abbrev txModeReg : RegAddr := 0x12
abbrev rxModeReg : RegAddr := 0x13
abbrev txControlReg : RegAddr := 0x14
abbrev txASKReg : RegAddr := 0x15
abbrev crcResultRegH : RegAddr := 0x21
abbrev crcResultRegL : RegAddr := 0x22
abbrev tModeReg : RegAddr := 0x2A
abbrev tPrescalerReg : RegAddr := 0x2B
abbrev tReloadRegH : RegAddr := 0x2C
abbrev tReloadRegL : RegAddr := 0x2D

/-- The code CommandReg shows for the active command (rule R143). -/
def cmdCode : Cmd → BitVec 4
  | .idle => 0b0000
  | .calcCrc => 0b0011
  | .transceive => 0b1100
  | .softReset => 0b1111

/-- Status2Reg.ModemState (rule R63). -/
def modemCode : Modem → BitVec 3
  | .idle => 0b000
  | .waitStart => 0b001
  | .waitData => 0b101

/-- What a write of a command code asks for (rules R143, R226, R227). -/
inductive CmdClass where
  | start (c : Cmd)
  | noCmdChange
  | outsideTheBlock
  | reserved
deriving DecidableEq, Repr

/-- The command code map (rule R143). -/
def cmdClass (c : BitVec 4) : CmdClass :=
  match c.toNat with
  | 0b0000 => .start .idle
  | 0b0011 => .start .calcCrc
  | 0b1100 => .start .transceive
  | 0b1111 => .start .softReset
  | 0b0111 => .noCmdChange
  | 0b0001 | 0b0010 | 0b0100 | 0b1000 | 0b1110 => .outsideTheBlock
  | _ => .reserved

/-- The reserved bits of each register (rules R37 to R61): they read as drawn and ignore writes (rule R34). -/
def reservedBits : Reg → Byte
  | .command => 0xC0
  | .divIEn => 0x6B
  | .divIrq => 0x6B
  | .error => 0x20
  | .status1 => 0x84
  | .status2 => 0x30
  | .waterLevel => 0xC0
  | .control => 0x38
  | .bitFraming => 0x08
  | .coll => 0x40
  | .mode => 0x54
  | .txMode => 0x07
  | .rxMode => 0x03
  | .txASK => 0xBF
  | .reserved => 0xFF
  | .comIEn => 0x00
  | .comIrq => 0x00
  | .fifoData => 0x00
  | .fifoLevel => 0x00
  | .txControl => 0x00
  | .crcResultH => 0x00
  | .crcResultL => 0x00
  | .tMode => 0x00
  | .tPrescaler => 0x00
  | .tReloadH => 0x00
  | .tReloadL => 0x00
  | .tCounterH => 0x00
  | .tCounterL => 0x00
  | .version => 0x00
  | .outside => 0x00
  | .outsideReadOnly => 0xFF

/-- Status1Reg, computed at each read (rule R43), its reserved bits shown as 0. -/
def status1Byte (s : State) : Byte :=
  0#1 ++ BitVec.ofBool (crcOk s) ++ BitVec.ofBool s.crcReady ++ BitVec.ofBool (irqActive s)
    ++ BitVec.ofBool s.tRunning ++ 0#1 ++ BitVec.ofBool (hiAlert s) ++ BitVec.ofBool (loAlert s)

/-- The byte a register shows (rule R202), its reserved bits shown as 0 or as stored. `a` is the address, for the
registers outside the block, and `d` the free byte of the read, for the values rule R202 leaves free as a whole: the
CRC result while CalcCRC has not finished (R257), the counter while the timer runs (R60), and a register outside the
block that nothing has written (R35). FIFODataReg holds no value of its own (R45): `fifoPop` answers for it. -/
def shownByte (s : State) (a : RegAddr) (d : Byte) : Reg → Byte
  | .command => 0#2 ++ BitVec.ofBool s.rcvOff ++ BitVec.ofBool (s.powerDown || s.pdBusy) ++ cmdCode s.cmd
  | .comIEn => s.comIEn
  | .divIEn => s.divIEn
  | .comIrq => s.comIrq.setWidth 8
  | .divIrq => 0#3 ++ BitVec.ofBool s.mfinActIrq ++ 0#1 ++ BitVec.ofBool s.crcIrq ++ 0#2
  | .error => s.err
  | .status1 => status1Byte s
  | .status2 => BitVec.ofBool s.tempSensClear ++ BitVec.ofBool s.i2cForceHS ++ 0#3 ++ modemCode s.modem
  | .fifoData => d
  | .fifoLevel => (BitVec.ofNat 7 s.fifo.length).setWidth 8
  | .waterLevel => s.waterLevel.setWidth 8
  | .control => s.rxLastBits.setWidth 8
  | .bitFraming => BitVec.ofBool s.startSend ++ s.rxAlign ++ 0#1 ++ s.txLastBits
  | .coll => BitVec.ofBool s.valuesAfterColl ++ 0#1 ++ BitVec.ofBool s.collPosNotValid ++ s.collPos
  | .mode => s.mode
  | .txMode => s.txMode
  | .rxMode => s.rxMode
  | .txControl => s.txControl
  | .txASK => s.txASK
  | .crcResultH => if s.cmd = .calcCrc ∧ s.crcReady = false then d else highByte s.crcResult
  | .crcResultL => if s.cmd = .calcCrc ∧ s.crcReady = false then d else lowByte s.crcResult
  | .tMode => s.tMode
  | .tPrescaler => s.tPrescaler.extractLsb' 0 8
  | .tReloadH => highByte s.tReload
  | .tReloadL => lowByte s.tReload
  | .tCounterH => if s.tRunning then d else highByte s.tCounter
  | .tCounterL => if s.tRunning then d else lowByte s.tCounter
  | .version => Config.versionByte
  | .outside => (memRead s.other a.toNat).getD d
  | .outsideReadOnly => d
  | .reserved => d

/-- `readValue(addr)` (rules R34, R202): the shown byte with every reserved bit drawn. -/
def readValue (s : State) (a : RegAddr) (d : Byte) : Byte :=
  drawBitsIn (reservedBits (regAt a)) d (shownByte s a d (regAt a))

end Sys2Proof.Machine
end

