-- ==== Sys2Proof/Machine/Guard.lean ====
section
/-! DEFINITION. What stands before every bus transaction (rules R200 and R201): the reset pin, and a reset or wake-up in
progress. -/

namespace Sys2Proof.Machine

open Sys2Proof

/-- A bus write (rule R201): refused in hard power-down, "ignored during a reset or wake-up", and otherwise the effect
`f` of the register written. -/
def busWrite (f : State → State) (s : State) : State :=
  if s.nrst = false then refuse .busAccessInHardPowerDown s
  else if s.pdBusy = true then s
  else f s

/-- A bus read at `a` (rule R200): refused in hard power-down; during a reset or wake-up every address but
CommandReg's answers a drawn byte and does nothing else; otherwise the effect `f` of the register read. -/
def busRead (a : RegAddr) (f : State → State) (s : State) : State :=
  if s.nrst = false then refuse .busAccessInHardPowerDown s
  else if s.pdBusy = true ∧ a ≠ commandReg then answer (Config.freeBits 8 s.draws) s
  else f s

/-- A bus transaction at an address of 0x40 or more (rules R32, R200, R201): the reset pin is looked at first. -/
def busBadAddr (s : State) : State :=
  if s.nrst = false then refuse .busAccessInHardPowerDown s
  else refuse .addressOutOfRange s

end Sys2Proof.Machine
end

