-- ==== Sys2Proof/Machine/Fifo.lean ====
section
/-! DEFINITION. The FIFO (rules R23, R45, R110 to R112) and the rows FIFO_PUSH, FIFO_POP and FLUSHBUFFER (rules R206 to
R208). -/

namespace Sys2Proof.Machine

open Sys2Proof

/-- `FifoPush(b)` (rules R23, R110): "appends byte b at the write end if len(S.fifo) < FIFO_DEPTH. Otherwise it sets
S.err.BufferOvfl <- 1 and drops b". -/
def fifoPush (b : Byte) (s : State) : State :=
  if s.fifo.length < Config.fifoDepth then { s with fifo := s.fifo ++ [b] } else setErr bufferOvfl s

/-- `FifoPush` of each byte in order (rule R314). -/
def fifoPushAll : List Byte → State → State
  | [], s => s
  | b :: bs, s => fifoPushAll bs (fifoPush b s)

/-- The FIFO without its oldest byte. -/
def fifoDropOldest (s : State) : State := { s with fifo := s.fifo.tail }

/-- `FifoFlush()` (rule R23). -/
def fifoFlush (s : State) : State := clearErr bufferOvfl { s with fifo := [] }

/-- A push by HOST (rule R206): WrErr while a reply is awaited (R413), the push itself, the coprocessor told that a
byte is waiting (R255), and the alerts (R112). -/
def hostPush (b : Byte) (s : State) : State :=
  let s₁ := if s.cmd = .transceive ∧ s.modem = .waitData then setErr wrErr s else s
  let s₂ := fifoPush b s₁
  withAlerts s (if s.cmd = .calcCrc then { s₂ with crcReady := false } else s₂)

/-- A pop by HOST (rule R207): the oldest byte; on an empty FIFO a drawn byte and no other change (R111). -/
def hostPop (s : State) : State :=
  match s.fifo with
  | [] => answer (Config.freeBits 8 s.draws) s
  | b :: _ => answer b (withAlerts s (fifoDropOldest s))

/-- A write of FIFOLevelReg with bit 7 set (rule R208). -/
def hostFlush (s : State) : State := withAlerts s (fifoFlush s)

/-! ### Meanings -/

/-- FIFO_PUSH (rules R201, R206). -/
def execFifoPush (d : Byte) (s : State) : Host.Outcome State Fault Refusal := .next (busWrite (hostPush d) s)

/-- FIFO_POP (rules R200, R207). -/
def execFifoPop (s : State) : Host.Outcome State Fault Refusal := .next (busRead fifoDataReg hostPop s)

/-- FLUSHBUFFER (rules R147, R201, R208): bits 6:0 are ignored. -/
def execFlushBuffer (_x : BitVec 7) (s : State) : Host.Outcome State Fault Refusal := .next (busWrite hostFlush s)

end Sys2Proof.Machine
end

