-- ==== Sys2Proof/Machine/Crc.lean ====
section
/-! DEFINITION. The CRC engine: the CRC_A function (rules R250, R251), the start of CalcCRC (rules R252, R253) and its
ENGINE steps (rules R254, R256). -/

namespace Sys2Proof.Machine

open Sys2Proof

/-- One shift of the register with the reflected polynomial 0x8408 (rule R250). -/
def crcShift (c : Word16) : Word16 := if c.getLsbD 0 then (c >>> 1) ^^^ 0x8408 else c >>> 1

/-- `n` shifts. -/
def crcShifts : Nat → Word16 → Word16
  | 0, c => c
  | n + 1, c => crcShifts n (crcShift c)

/-- `crcA_step` (rule R250): the byte, least significant bit first, through eight shifts. -/
def crcAStep (crc : Word16) (b : Byte) : Word16 := crcShifts 8 (crc ^^^ b.setWidth 16)

/-- `crcA(init, bytes)` (rule R250). No final XOR is applied. -/
def crcA (init : Word16) (bytes : List Byte) : Word16 := bytes.foldl crcAStep init

/-- The byte-wise form of rule R250. -/
def crcAStepBytewise (crc : Word16) (b : Byte) : Word16 :=
  let t₀ : Byte := b ^^^ crc.extractLsb' 0 8
  let t : Word16 := (t₀ ^^^ (t₀ <<< 4)).setWidth 16
  (crc >>> 8) ^^^ (t <<< 8) ^^^ (t <<< 3) ^^^ (t >>> 4)

/-- ModeReg.MSBFirst (rule R51). -/
def msbFirst (s : State) : Bool := s.mode.getLsbD 7

/-- The preset that ModeReg.CRCPreset selects (rules R51, R251). -/
def crcPreset (s : State) : Word16 :=
  match (s.mode.extractLsb' 0 2).toNat with
  | 0b00 => 0x0000
  | 0b01 => 0x6363
  | 0b10 => 0xA671
  | _ => 0xFFFF

/-- The start of CalcCRC, after the stop of the command before it (rules R252, R253). -/
def startCalcCrc (s : State) : State :=
  if msbFirst s then refuse .crcWithMsbFirst s
  else { s with cmd := .calcCrc, crc := crcPreset s, crcReady := false }

/-- The effect of the ENGINE step CRC_BYTE (rule R254); on an empty FIFO it is not enabled. -/
def crcByteEffect (s : State) : State :=
  match s.fifo with
  | [] => s
  | b :: _ => withAlerts s (logEvent (.crcByte b) { fifoDropOldest s with crc := crcAStep s.crc b })

/-- The effect of the ENGINE step CRC_DONE (rule R256). -/
def crcDoneEffect (s : State) : State := { s with crcResult := s.crc, crcReady := true, crcIrq := true }

end Sys2Proof.Machine
end

