-- ==== Sys2Proof/Machine/Timer.lean ====
section
/-! DEFINITION. The timer (rules R57 to R60, R425 to R431) and the rows TSTARTNOW and TSTOPNOW (rules R148, R211). The
model keeps no time: expiry is an ENGINE step (rule R427). -/

namespace Sys2Proof.Machine

open Sys2Proof

/-- TModeReg.TAuto (rule R57). -/
def tAuto (s : State) : Bool := s.tMode.getLsbD 7

/-- TModeReg.TGated (rule R57). -/
def tGated (s : State) : BitVec 2 := s.tMode.extractLsb' 5 2

/-- TModeReg.TAutoRestart (rule R57). -/
def tAutoRestart (s : State) : Bool := s.tMode.getLsbD 4

/-- `timerStart()` (rule R426): refused when gated; a start while the timer runs restarts it. -/
def timerStart (s : State) : State :=
  if tGated s ≠ 0 then refuse .timerGated s
  else { s with tCounter := s.tReload, tRunning := true }

/-- `timerStop()` (rule R429): the counter keeps a value "which the model does not track, so it is drawn". -/
def timerStop (s : State) : State :=
  { s with tRunning := false, tCounter := Config.freeBits 16 s.draws, draws := s.draws + 1 }

/-- A write of ControlReg (rules R148, R211): "If both are 1, TStopNow wins"; bits 5:0 are ignored. -/
def controlWrite (v : Byte) (s : State) : State :=
  if v.getLsbD 7 then timerStop s else if v.getLsbD 6 then timerStart s else s

/-- The effect of the ENGINE step TIMER_EXPIRE (rule R427). -/
def timerExpireEffect (s : State) : State :=
  let s₁ := logEvent .timerExpire (raiseCom timerIRq s)
  if tAutoRestart s then { s₁ with tCounter := s.tReload } else { s₁ with tRunning := false, tCounter := 0 }

/-- The chip's time from a start to expiry, in periods of F_CLK (rule R425's formula): `(TReload + 1) *
(2 * TPrescaler + 1)`. It is informative: no rule depends on it. -/
def timerPeriod (reload : Word16) (prescaler : BitVec 12) : Nat := (reload.toNat + 1) * (2 * prescaler.toNat + 1)

/-! ### Meanings -/

/-- TSTOPNOW (rules R148, R211, R429). -/
def execTStopNow (x : BitVec 7) (s : State) : Host.Outcome State Fault Refusal :=
  .next (busWrite (controlWrite (1#1 ++ x)) s)

/-- TSTARTNOW (rules R148, R211, R428). -/
def execTStartNow (x : BitVec 6) (s : State) : Host.Outcome State Fault Refusal :=
  .next (busWrite (controlWrite (1#2 ++ x)) s)

end Sys2Proof.Machine
end

