-- ==== Sys2Proof/Machine/Framer.lean ====
section
/-! DEFINITION. The bit-framer: frame assembly (rules R25, R302), the StartSend request (rule R308), the transmit step
with FIELD's reply (rules R309 to R312), the receive step with its packing (rules R25, R314) and the collision detect
(rule R315), the start of Transceive (rule R301), and the row STARTSEND. -/

namespace Sys2Proof.Machine

open Sys2Proof

/-! ### Bit strings (rule R25) -/

/-- `bitsLSB(b, n)`: the `n` low bits, bit 0 first. -/
def bitsLSB (b : Byte) (n : Nat) : List Bool := (List.range n).map b.getLsbD

/-- Up to eight bits as a byte, the first bit at bit 0. -/
def byteOfBits (bits : List Bool) : Byte :=
  bits.foldr (fun b v => (v <<< 1) ||| (BitVec.ofBool b).setWidth 8) 0

/-- `n` bytes from a list of bits, eight bits a byte. -/
def bytesOfBits : Nat → List Bool → List Byte
  | 0, _ => []
  | n + 1, bits => byteOfBits (bits.take 8) :: bytesOfBits n (bits.drop 8)

/-- The bits of `pack(bits, off)` (rule R25) as a whole number of bytes: the positions below `off` and the unused high
bits of the last byte take the free bits `free k` of their positions (rule R314). -/
def grid (free : Nat → Bool) (off : Nat) (bits : List Bool) : List Bool :=
  (List.range off).map free ++ bits
    ++ (List.range ((8 - (off + bits.length) % 8) % 8)).map fun k => free (off + bits.length + k)

/-- `pack(bits, off)` (rule R25): bit `k` goes to bit `(off + k) mod 8` of byte `(off + k) div 8`. -/
def pack (free : Nat → Bool) (off : Nat) (bits : List Bool) : List Byte :=
  bytesOfBits ((off + bits.length + 7) / 8) (grid free off bits)

/-! ### Frame assembly -/

/-- How many bits of the last byte are sent: 0 stands for 8 (rules R302, R303). -/
def lastByteBits (l : BitVec 3) : Nat := if l = 0 then 8 else l.toNat

/-- `assemble(S.fifo, S.txLastBits)` (rule R302): every byte least significant bit first, the last one only its low
bits. -/
def assemble : List Byte → BitVec 3 → List Bool
  | [], _ => []
  | [b], l => bitsLSB b (lastByteBits l)
  | b :: bs, l => bitsLSB b 8 ++ assemble bs l

/-! ### StartSend -/

/-- `startSendRequest()` (rules R76, R308). -/
def startSendRequest (s : State) : State :=
  if s.cmd = .transceive ∧ s.modem = .waitStart ∧ s.powerDown = false then { s with txReq := true } else s

/-- A write of BitFramingReg (rule R212). -/
def bitFramingWrite (start : Bool) (align last : BitVec 3) (s : State) : State :=
  let s₁ := { s with rxAlign := align, txLastBits := last, startSend := start }
  if start then startSendRequest s₁ else s₁

/-- The start of Transceive, after the stop of the command before it (rule R301). The FIFO is not flushed. -/
def startTransceive (s : State) : State :=
  { s with cmd := .transceive, modem := .waitStart, txReq := false, pendingResp := none }

/-! ### The transmit step -/

/-- The radio configuration the model admits (rule R309). -/
def radioAdmitted (s : State) : Bool :=
  s.txMode.getLsbD 7 == false && s.txMode.extractLsb' 4 3 == 0 && s.txMode.getLsbD 3 == false
    && s.rxMode.getLsbD 7 == false && s.rxMode.extractLsb' 4 3 == 0 && s.rxMode.getLsbD 3 == false
    && s.rxMode.getLsbD 2 == false
    && (!tAuto s || tGated s == 0)

/-- FIELD's next choice (rule R311): the one that stands ready, or a free one. -/
def fieldChoice (s : State) : Option Reply :=
  match s.field with
  | r :: _ => r
  | [] => Config.freeReply s.draws

/-- FIELD's choice is made: the ready one is used up, or a free one drawn. -/
def fieldMoved (s : State) : State :=
  match s.field with
  | _ :: rest => { s with field := rest }
  | [] => bumpDraws 1 s

/-- `fieldReply(frame)` (rules R311, R312): silence when the antenna or the receiver is off, whatever FIELD would
choose. -/
def fieldReply (s : State) : Option Reply := if fieldOn s && !s.rcvOff then fieldChoice s else none

/-- Receiver start-up (rules R310, R412 (b)): the reception flags are cleared and the collision position is drawn. -/
def receiverStartUp (s : State) : State :=
  { clearErr (collErr ||| parityErr ||| protocolErr ||| crcErr) s with
    collPosNotValid := true
    collPos := Config.freeBits 5 s.draws
    draws := s.draws + 1 }

/-- The transmission itself (rule R310): the FIFO is taken whole, the request is done, TxIRq is set. -/
def transmitFrame (s : State) : State :=
  raiseCom txIRq (logEvent (.tx (assemble s.fifo s.txLastBits)) { s with fifo := [], txReq := false })

/-- The wait for the reply begins (rule R310): FIELD has chosen, the phase is WAIT_DATA, and with TAuto the timer
starts (rule R426). -/
def awaitReply (s : State) : State :=
  let s₁ := { fieldMoved s with pendingResp := fieldReply s, modem := .waitData }
  if tAuto s then timerStart s₁ else s₁

/-- The effect of the ENGINE step TX (rule R310). -/
def txEffect (s : State) : State :=
  if radioAdmitted s = false then refuse .radioConfigurationOutsideTheModel s
  else if s.fifo = [] then refuse .transmitWithEmptyFifo s
  else withAlerts s (awaitReply (receiverStartUp (transmitFrame s)))

/-! ### The receive step -/

/-- `j0` (rule R314): the 1-based index of the first collided symbol. -/
def firstCollision : List Sym → Option Nat
  | [] => none
  | .x :: _ => some 1
  | _ :: ys => (firstCollision ys).map (· + 1)

/-- The received data bits of rule R314. `keep` is ValuesAfterColl, `seen` says whether a collision came before, `k` is
the position in the grid, where a collided bit that is kept takes the free bit `free k`. -/
def receivedBits (keep : Bool) (free : Nat → Bool) : Nat → Bool → List Sym → List Bool
  | _, _, [] => []
  | k, seen, y :: ys =>
    let seen' := seen || y == .x
    let b :=
      if seen' && !keep then false
      else
        match y with
        | .zero => false
        | .one => true
        | .x => free k
    b :: receivedBits keep free (k + 1) seen' ys

/-- The free bit at position `k` of the reception's grid. -/
def freeBitAt (s : State) (k : Nat) : Bool := (Config.freeBits 1 (s.draws + k)).getLsbD 0

/-- The bytes a reception stores (rule R314). -/
def receivedBytes (s : State) (r : Reply) : List Byte :=
  pack (freeBitAt s) s.rxAlign.toNat (receivedBits s.valuesAfterColl (freeBitAt s) s.rxAlign.toNat false r.syms)

/-- The collision position `p` (rule R315) for a first collision at `j0`. -/
def collisionPosition (origin : CollPosOrigin) (align j0 : Nat) : Nat :=
  match origin with
  | .grid => align + j0
  | .frame => j0

/-- `collision(j0)` (rule R315). -/
def collision (j0 : Option Nat) (s : State) : State :=
  match j0 with
  | none => { s with collPosNotValid := true }
  | some j =>
    let p := collisionPosition Config.collPosOrigin s.rxAlign.toNat j
    let s₁ := setErr collErr s
    if p ≤ 32 then { s₁ with collPosNotValid := false, collPos := BitVec.ofNat 5 (p % 32) }
    else { s₁ with collPosNotValid := true, collPos := Config.freeBits 5 s.draws, draws := s.draws + 1 }

/-- The bytes of the reply go to the FIFO (rule R314), and RxLastBits counts the bits of the last one. -/
def storeReply (r : Reply) (s : State) : State :=
  { fifoPushAll (receivedBytes s r) (bumpDraws (8 * (receivedBytes s r).length) s) with
    rxLastBits := BitVec.ofNat 3 (s.rxAlign.toNat + r.syms.length) }

/-- The error flags of a reception (rules R314, R315, R408). -/
def flagReply (r : Reply) (s : State) : State :=
  let s₁ := collision (firstCollision r.syms) s
  let s₂ := if r.parityErr then setErr parityErr s₁ else s₁
  if r.protocolErr then setErr protocolErr s₂ else s₂

/-- A reply of at least 4 bits stops a running timer under TAuto (rules R314, R430). -/
def stopTimerOnReply (r : Reply) (s : State) : State :=
  if 4 ≤ r.syms.length ∧ s.tRunning = true ∧ tAuto s = true then timerStop s else s

/-- The effect of the ENGINE step RX (rule R314) on the pending reply; without one it is not enabled. The radio
configuration is checked at the transmission only (rules R309, R403), so a reply is received whatever HOST has written to
RxModeReg since: DEDUCED, against rules R53 and R210, log entry 21. -/
def rxEffect (s : State) : State :=
  match s.pendingResp with
  | none => s
  | some r =>
    let s₁ := stopTimerOnReply r (flagReply r (storeReply r { s with pendingResp := none }))
    withAlerts s (raiseCom rxIRq { logEvent (.rx r) s₁ with modem := .waitStart })

/-! ### Premises on FIELD (rule R313) -/

/-- The merge of two answers of one length: a symbol is kept where they agree. -/
def mergeSyms : List Sym → List Sym → List Sym
  | y :: ys, z :: zs => (if y = z then y else .x) :: mergeSyms ys zs
  | _, _ => []

/-- The symbols of a card's own bits. -/
def symsOfBits (bits : List Bool) : List Sym := bits.map fun b => if b then .one else .zero

/-- `merge(a_1, ..., a_m)` (rule R313), the answers all of one length. The chip does not run it: it states premises. -/
def mergeAnswers : List (List Bool) → List Sym
  | [] => []
  | a :: as => as.foldl (fun m b => mergeSyms m (symsOfBits b)) (symsOfBits a)

/-- FIELD's reply to a frame that the cards of `answers` answer (rule R313): the merge, with "both error flags false". No
card, or no bit, is silence, for a reply holds at least one symbol (rule R311). -/
def mergedReply (answers : List (List Bool)) : Option Reply :=
  match mergeAnswers answers with
  | [] => none
  | y :: ys => some ⟨y, ys, false, false⟩

/-! ### Meanings -/

/-- STARTSEND (rules R201, R212, R308). -/
def execStartSend (a l : BitVec 3) (s : State) : Host.Outcome State Fault Refusal :=
  .next (busWrite (bitFramingWrite true a l) s)

end Sys2Proof.Machine
end

