-- ==== Sys2Proof/Machine/Commands.lean ====
section
/-! DEFINITION. Writes of CommandReg (rules R203, R220 to R229, R301, R318, R319) and the rows of format CMD. -/

namespace Sys2Proof.Machine

open Sys2Proof

/-- `stopCommand()` (rules R220, R319): the active command ends without its completion effects. A Transceive loses its
phase, its request and a reply not yet received; FIFO, flags, timer and the coprocessor's registers keep their
values. -/
def stopCommand (s : State) : State :=
  { s with cmd := .idle, modem := .idle, txReq := false, pendingResp := none }

/-- RcvOff is written by every CommandReg write (rule R203); switching the receiver off during the wait loses the
pending reply (rule R318). -/
def setRcvOff (r : Bool) (s : State) : State :=
  { s with
    rcvOff := r
    pendingResp := if r = true ∧ s.modem = .waitData then none else s.pendingResp }

/-- `S.err <- S.err & 0x40` at a command start (rules R203, R412 (a)). -/
def clearErrAtStart (s : State) : State := { s with err := s.err &&& tempErr }

/-- The start of SoftReset, the host's step (rule R225). -/
def startSoftReset (s : State) : State := { s with cmd := .softReset, pdBusy := true }

/-- `startCommand_engine(c)` (rule R203) for the commands of the block. -/
def startCommandEngine (c : Cmd) (s : State) : State :=
  match c with
  | .idle => s
  | .calcCrc => startCalcCrc s
  | .transceive => startTransceive s
  | .softReset => startSoftReset s

/-- A CommandReg write while the chip is in soft power-down (rules R203, R228): with PowerDown = 0 the wake-up
starts. -/
def commandWhilePoweredDown (p : Bool) (c : BitVec 4) (s : State) : State :=
  if cmdClass c ≠ .start .idle ∧ cmdClass c ≠ .noCmdChange then refuse .commandWhilePoweredDown s
  else if p then s
  else { s with powerDown := false, pdBusy := true }

/-- Entering soft power-down (rules R203, R228, R312): with Idle the command stops, with NoCmdChange it stays; the
field goes off, so a pending reply is lost. -/
def enterPowerDown (c : BitVec 4) (s : State) : State :=
  if cmdClass c ≠ .start .idle ∧ cmdClass c ≠ .noCmdChange then refuse .commandWithPowerDown s
  else
    let s₁ := if cmdClass c = .start .idle then stopCommand s else s
    { s₁ with pendingResp := none, powerDown := true }

/-- A command code written with PowerDown = 0 outside soft power-down (rule R203). -/
def writeCommandCode (c : BitVec 4) (s : State) : State :=
  match cmdClass c with
  | .noCmdChange => s
  | .reserved => refuse .reservedCommand s
  | .outsideTheBlock => refuse .commandOutsideTheBlock s
  | .start k => startCommandEngine k (clearErrAtStart (stopCommand s))

/-- A write of CommandReg with fields RcvOff `r`, PowerDown `p` and code `c` (rule R203). -/
def commandWrite (r p : Bool) (c : BitVec 4) (s : State) : State :=
  let s₁ := setRcvOff r s
  if s.powerDown then commandWhilePoweredDown p c s₁
  else if p then enterPowerDown c s₁
  else writeCommandCode c s₁

/-- The row of a command code written with PowerDown = 0 (rules R144, R201, R203). -/
def execCommand (r : Bool) (c : BitVec 4) (s : State) : Host.Outcome State Fault Refusal :=
  .next (busWrite (commandWrite r false c) s)

/-! ### Meanings -/

/-- IDLE (rule R222). -/
def execIdle (r : Bool) (s : State) : Host.Outcome State Fault Refusal := execCommand r 0x0 s

/-- MEM (rule R226): marks the run refused. -/
def execMem (r : Bool) (s : State) : Host.Outcome State Fault Refusal := execCommand r 0x1 s

/-- GENRANDID (rule R226): marks the run refused. -/
def execGenRandId (r : Bool) (s : State) : Host.Outcome State Fault Refusal := execCommand r 0x2 s

/-- CALCCRC (rule R252). -/
def execCalcCrc (r : Bool) (s : State) : Host.Outcome State Fault Refusal := execCommand r 0x3 s

/-- TRANSMIT (rule R226): marks the run refused. -/
def execTransmit (r : Bool) (s : State) : Host.Outcome State Fault Refusal := execCommand r 0x4 s

/-- RESERVED_5 (rule R227): marks the run refused. -/
def execReserved5 (r : Bool) (s : State) : Host.Outcome State Fault Refusal := execCommand r 0x5 s

/-- RESERVED_6 (rule R227): marks the run refused. -/
def execReserved6 (r : Bool) (s : State) : Host.Outcome State Fault Refusal := execCommand r 0x6 s

/-- NOCMDCHANGE (rule R229). -/
def execNoCmdChange (r : Bool) (s : State) : Host.Outcome State Fault Refusal := execCommand r 0x7 s

/-- RECEIVE (rule R226): marks the run refused. -/
def execReceive (r : Bool) (s : State) : Host.Outcome State Fault Refusal := execCommand r 0x8 s

/-- RESERVED_9 (rule R227): marks the run refused. -/
def execReserved9 (r : Bool) (s : State) : Host.Outcome State Fault Refusal := execCommand r 0x9 s

/-- RESERVED_A (rule R227): marks the run refused. -/
def execReservedA (r : Bool) (s : State) : Host.Outcome State Fault Refusal := execCommand r 0xA s

/-- RESERVED_B (rule R227): marks the run refused. -/
def execReservedB (r : Bool) (s : State) : Host.Outcome State Fault Refusal := execCommand r 0xB s

/-- TRANSCEIVE (rule R301). -/
def execTransceive (r : Bool) (s : State) : Host.Outcome State Fault Refusal := execCommand r 0xC s

/-- RESERVED_D (rule R227): marks the run refused. -/
def execReservedD (r : Bool) (s : State) : Host.Outcome State Fault Refusal := execCommand r 0xD s

/-- MFAUTHENT (rule R226): marks the run refused. -/
def execMfAuthent (r : Bool) (s : State) : Host.Outcome State Fault Refusal := execCommand r 0xE s

/-- SOFTRESET (rule R225). -/
def execSoftReset (r : Bool) (s : State) : Host.Outcome State Fault Refusal := execCommand r 0xF s

/-- POWERDOWN (rule R228): CommandReg with bit 4 set and the code `c`. -/
def execPowerDown (r : Bool) (c : BitVec 4) (s : State) : Host.Outcome State Fault Refusal :=
  .next (busWrite (commandWrite r true c) s)

end Sys2Proof.Machine
end

