-- ==== Sys2Proof/Machine/Irq.lean ====
section
/-! DEFINITION. Writes of ComIrqReg and DivIrqReg (rules R146, R204, R205, R417) and the interrupt pin (rule R209). -/

namespace Sys2Proof.Machine

open Sys2Proof

/-- A write of ComIrqReg (rule R204): sets or clears the flags whose mask bit is 1. -/
def comIrqWrite (set : Bool) (m : BitVec 7) (s : State) : State :=
  { s with comIrq := if set then s.comIrq ||| m else s.comIrq &&& ~~~m }

/-- A write of DivIrqReg (rule R205): bit 4 marks MfinActIRq and bit 2 CRCIRq; the other mask bits are ignored. -/
def divIrqWrite (set : Bool) (m : BitVec 7) (s : State) : State :=
  { s with
    mfinActIrq := if m.getLsbD 4 then set else s.mfinActIrq
    crcIrq := if m.getLsbD 2 then set else s.crcIrq }

/-- `pollInterruptAsserted()` (rule R209): "return Status1Reg.IRq", refused in hard power-down. -/
def pollPin (s : State) : State :=
  if s.nrst = false then refuse .busAccessInHardPowerDown s else { s with pinOut := irqActive s }

/-! ### Meanings -/

/-- IRQ_SET (rules R146, R204). -/
def execIrqSet (m : BitVec 7) (s : State) : Host.Outcome State Fault Refusal := .next (busWrite (comIrqWrite true m) s)

/-- IRQ_CLEAR (rules R146, R204). -/
def execIrqClear (m : BitVec 7) (s : State) : Host.Outcome State Fault Refusal :=
  .next (busWrite (comIrqWrite false m) s)

/-- DIVIRQ_SET (rules R146, R205). -/
def execDivIrqSet (m : BitVec 7) (s : State) : Host.Outcome State Fault Refusal :=
  .next (busWrite (divIrqWrite true m) s)

/-- DIVIRQ_CLEAR (rules R146, R205). -/
def execDivIrqClear (m : BitVec 7) (s : State) : Host.Outcome State Fault Refusal :=
  .next (busWrite (divIrqWrite false m) s)

/-- IRQPIN (rules R157, R209). -/
def execIrqPin (s : State) : Host.Outcome State Fault Refusal := .next (pollPin s)

end Sys2Proof.Machine
end

