-- ==== Sys2Proof/Machine/Registers.lean ====
section
/-! DEFINITION. The plain bus transactions: reading any register (rules R200, R202), writing any register (rules R201,
R210), and the rows RD, WR, BAD_ADDR and BAD_ADDR_6. -/

namespace Sys2Proof.Machine

open Sys2Proof

/-- Writing TxControlReg switches the antenna at once (rule R210): switched off, it loses a pending reply (R312). -/
def txControlWrite (v : Byte) (s : State) : State :=
  let s₁ := { s with txControl := v }
  { s₁ with pendingResp := if antennaOn s₁ then s.pendingResp else none }

/-- The effect of writing `v` at register address `a` (rules R201, R210): the case list of rule R201. -/
def registerWrite (a : RegAddr) (v : Byte) (s : State) : State :=
  match regAt a with
  | .command => commandWrite (v.getLsbD 5) (v.getLsbD 4) (v.extractLsb' 0 4) s
  | .comIEn => { s with comIEn := v }
  | .divIEn => { s with divIEn := storeBits (~~~reservedBits .divIEn) s.divIEn v }
  | .comIrq => comIrqWrite (v.getLsbD 7) (v.extractLsb' 0 7) s
  | .divIrq => divIrqWrite (v.getLsbD 7) (v.extractLsb' 0 7) s
  | .error => s
  | .status1 => s
  | .status2 => { s with tempSensClear := v.getLsbD 7, i2cForceHS := v.getLsbD 6 }
  | .fifoData => hostPush v s
  | .fifoLevel => if v.getLsbD 7 then hostFlush s else s
  | .waterLevel => withAlerts s { s with waterLevel := v.extractLsb' 0 6 }
  | .control => controlWrite v s
  | .bitFraming => bitFramingWrite (v.getLsbD 7) (v.extractLsb' 4 3) (v.extractLsb' 0 3) s
  | .coll => { s with valuesAfterColl := v.getLsbD 7 }
  | .mode => { s with mode := storeBits (~~~reservedBits .mode) s.mode v }
  | .txMode => { s with txMode := storeBits (~~~reservedBits .txMode) s.txMode v }
  | .rxMode => { s with rxMode := storeBits (~~~reservedBits .rxMode) s.rxMode v }
  | .txControl => txControlWrite v s
  | .txASK => { s with txASK := v }
  | .crcResultH => s
  | .crcResultL => s
  | .tMode => { s with tMode := v, tPrescaler := v.extractLsb' 0 4 ++ s.tPrescaler.extractLsb' 0 8 }
  | .tPrescaler => { s with tPrescaler := s.tPrescaler.extractLsb' 8 4 ++ v }
  | .tReloadH => { s with tReload := v ++ lowByte s.tReload }
  | .tReloadL => { s with tReload := highByte s.tReload ++ v }
  | .tCounterH => s
  | .tCounterL => s
  | .version => s
  | .outside => { s with other := memWrite s.other a.toNat v }
  | .outsideReadOnly => s
  | .reserved => s

/-- The effect of reading at register address `a` (rules R202, R207): FIFODataReg pops, every other register only
answers. -/
def registerRead (a : RegAddr) (s : State) : State :=
  if regAt a = .fifoData then hostPop s else answer (readValue s a (Config.freeBits 8 s.draws)) s

/-! ### Meanings -/

/-- RD (rule R200). -/
def execRd (a : RegAddr) (s : State) : Host.Outcome State Fault Refusal := .next (busRead a (registerRead a) s)

/-- WR (rule R201). -/
def execWr (a : RegAddr) (d : Byte) (s : State) : Host.Outcome State Fault Refusal :=
  .next (busWrite (registerWrite a d) s)

/-- BAD_ADDR (rules R32, R152, R200, R201): a carrier with bit 7 = 1. -/
def execBadAddr (_k : Bool) (_a : BitVec 7) (_d : Byte) (s : State) : Host.Outcome State Fault Refusal :=
  .next (busBadAddr s)

/-- BAD_ADDR_6 (rules R32, R152, R200, R201): a carrier with bits 7:6 = 0b01. -/
def execBadAddr6 (_k : Bool) (_a : BitVec 6) (_d : Byte) (s : State) : Host.Outcome State Fault Refusal :=
  .next (busBadAddr s)

end Sys2Proof.Machine
end

