-- ==== Sys2Proof/Machine/Resets.lean ====
section
/-! DEFINITION. The reset pin (rules R68, R500, R501) and the completion of a reset or wake-up (rules R225, R228). -/

namespace Sys2Proof.Machine

open Sys2Proof

/-- `assertReset()` (rule R500): hard power-down; "the active command and any pending reply are lost". -/
def assertResetPin (s : State) : State := { stopCommand s with nrst := false }

/-- `releaseReset()` (rule R501): with the reset asserted, a hard reset; otherwise "changes nothing". -/
def releaseResetPin (s : State) : State :=
  if s.nrst then s else logEvent (.reset .hard) { chipReset s with nrst := true, pdBusy := true }

/-- The effect of the ENGINE step RESET_DONE (rule R225). -/
def resetDoneEffect (s : State) : State :=
  logEvent (.reset .soft) (raiseCom idleIRq { chipReset s with pdBusy := false, cmd := .idle })

/-- The effect of the ENGINE step WAKE_DONE (rule R228). -/
def wakeDoneEffect (s : State) : State := { s with pdBusy := false }

/-- The effect of the environment event OVERHEAT (rule R409). -/
def overheatEffect (s : State) : State :=
  logEvent .overheat
    { setErr tempErr s with txControl := s.txControl &&& 0xFC, pendingResp := none }

/-! ### Meanings -/

/-- ASSERT_RESET (rule R500). -/
def execAssertReset (s : State) : Host.Outcome State Fault Refusal := .next (assertResetPin s)

/-- RELEASE_RESET (rule R501). -/
def execReleaseReset (s : State) : Host.Outcome State Fault Refusal := .next (releaseResetPin s)

end Sys2Proof.Machine
end

