-- ==== Sys2Proof/Machine/Engine.lean ====
section
/-! DEFINITION. The steps of ENGINE and FIELD (rules R104, R404): when each is enabled and what it does. -/

namespace Sys2Proof.Machine

open Sys2Proof

/-- In hard power-down and in soft power-down "neither ENGINE nor FIELD has any step" (rules R228, R404, R500). -/
def engineAwake (s : State) : Bool := s.nrst && !s.powerDown

/-- No reset or wake-up is in progress either: the condition of the steps of a running chip. -/
def engineRuns (s : State) : Bool := engineAwake s && !s.pdBusy

/-- When a step is enabled: CRC_BYTE R254, CRC_DONE R256, TX R310, RX R314, TIMER_EXPIRE R427, OVERHEAT R409,
RESET_DONE R225, WAKE_DONE R228. OVERHEAT is enabled in the states too that R404 calls quiescent, as R409 says: DEDUCED,
log entry 19. -/
def engineEnabled (e : EngineStep) (s : State) : Bool :=
  match e with
  | .crcByte => engineRuns s && s.cmd == .calcCrc && !s.fifo.isEmpty
  | .crcDone => engineRuns s && s.cmd == .calcCrc && s.fifo.isEmpty && !s.crcReady
  | .tx => engineRuns s && s.cmd == .transceive && s.modem == .waitStart && s.txReq
  | .rx => engineRuns s && s.cmd == .transceive && s.modem == .waitData && s.pendingResp.isSome && !s.rcvOff
  | .timerExpire => engineRuns s && s.tRunning
  | .overheat => engineAwake s && s.allowOverheat && !s.err.getLsbD 6
  | .resetDone => engineAwake s && s.cmd == .softReset && s.pdBusy
  | .wakeDone => engineAwake s && s.pdBusy && s.cmd != .softReset

/-- What a step does when it is taken. -/
def engineEffect (e : EngineStep) (s : State) : State :=
  match e with
  | .crcByte => crcByteEffect s
  | .crcDone => crcDoneEffect s
  | .tx => txEffect s
  | .rx => rxEffect s
  | .timerExpire => timerExpireEffect s
  | .overheat => overheatEffect s
  | .resetDone => resetDoneEffect s
  | .wakeDone => wakeDoneEffect s

/-- ENGINE's move: the named step if it is enabled; otherwise ENGINE has no such step and nothing happens. -/
def engineStep (e : EngineStep) (s : State) : State := if engineEnabled e s then engineEffect e s else s

/-- A sequence of ENGINE moves. -/
def engineSteps : List EngineStep → State → State
  | [], s => s
  | e :: es, s => engineSteps es (engineStep e s)

/-- ENGINE's own steps: all but the environment event OVERHEAT (rule R409). -/
def ownSteps : List EngineStep := [.crcByte, .crcDone, .tx, .rx, .timerExpire, .resetDone, .wakeDone]

/-- A quiescent state (rule R404): none of ENGINE's own steps is enabled. The environment event OVERHEAT may still come
(DEDUCED, log entry 19). -/
def engineQuiescent (s : State) : Bool := ownSteps.all fun e => !engineEnabled e s

/-- Agent ENGINE is stuck (rule R24): the state is quiescent and OVERHEAT is not enabled either. -/
def engineStuck (s : State) : Bool := engineQuiescent s && !engineEnabled .overheat s

/-! ### The interleaving (rule R104) -/

/-- The agent that moves next, and the state with that move used up: the schedule's next move, or a free one. -/
def takeMove (s : State) : Move × State :=
  match s.sched with
  | m :: rest => (m, { s with sched := rest })
  | [] => (Config.freeMove s.draws, bumpDraws 1 s)

/-- The operation HOST issues next, and the state with that operation used up. -/
def takeHostWord (s : State) : Option (HostWord × State) :=
  match s.hostOps with
  | [] => none
  | w :: rest => some (w, { s with hostOps := rest })

end Sys2Proof.Machine
end

