-- ==== Sys2Proof/Machine/Dispatch.lean ====
section
/-! DEFINITION. exec: one direct call of a meaning for each constructor of Instr. -/

namespace Sys2Proof.Machine

def exec (i : Instr) (s : State) : Host.Outcome State Fault Refusal :=
  match i with
  | .rd a => Sys2Proof.Machine.execRd a s
  | .wr a d => Sys2Proof.Machine.execWr a d s
  | .badAddr k a d => Sys2Proof.Machine.execBadAddr k a d s
  | .badAddr6 k a d => Sys2Proof.Machine.execBadAddr6 k a d s
  | .idle r => Sys2Proof.Machine.execIdle r s
  | .mem r => Sys2Proof.Machine.execMem r s
  | .genRandId r => Sys2Proof.Machine.execGenRandId r s
  | .calcCrc r => Sys2Proof.Machine.execCalcCrc r s
  | .transmit r => Sys2Proof.Machine.execTransmit r s
  | .reserved5 r => Sys2Proof.Machine.execReserved5 r s
  | .reserved6 r => Sys2Proof.Machine.execReserved6 r s
  | .noCmdChange r => Sys2Proof.Machine.execNoCmdChange r s
  | .receive r => Sys2Proof.Machine.execReceive r s
  | .reserved9 r => Sys2Proof.Machine.execReserved9 r s
  | .reservedA r => Sys2Proof.Machine.execReservedA r s
  | .reservedB r => Sys2Proof.Machine.execReservedB r s
  | .transceive r => Sys2Proof.Machine.execTransceive r s
  | .reservedD r => Sys2Proof.Machine.execReservedD r s
  | .mfAuthent r => Sys2Proof.Machine.execMfAuthent r s
  | .softReset r => Sys2Proof.Machine.execSoftReset r s
  | .powerDown r c => Sys2Proof.Machine.execPowerDown r c s
  | .irqSet m => Sys2Proof.Machine.execIrqSet m s
  | .irqClear m => Sys2Proof.Machine.execIrqClear m s
  | .divIrqSet m => Sys2Proof.Machine.execDivIrqSet m s
  | .divIrqClear m => Sys2Proof.Machine.execDivIrqClear m s
  | .fifoPush d => Sys2Proof.Machine.execFifoPush d s
  | .fifoPop => Sys2Proof.Machine.execFifoPop s
  | .flushBuffer x => Sys2Proof.Machine.execFlushBuffer x s
  | .tStopNow x => Sys2Proof.Machine.execTStopNow x s
  | .tStartNow x => Sys2Proof.Machine.execTStartNow x s
  | .startSend a l => Sys2Proof.Machine.execStartSend a l s
  | .assertReset => Sys2Proof.Machine.execAssertReset s
  | .releaseReset => Sys2Proof.Machine.execReleaseReset s
  | .irqPin => Sys2Proof.Machine.execIrqPin s

end Sys2Proof.Machine
end

