-- ==== Sys2Proof/Machine/Step.lean ====
section
/-! DEFINITION. One step of the machine: the agent that the interleaving names makes one atomic step (rule R104). -/

namespace Sys2Proof.Machine

open Sys2Proof

/-- HOST's move: its next operation is decoded and executed; with none left HOST does nothing. -/
def hostMove (s : State) : Host.Outcome State Fault Refusal :=
  match takeHostWord s with
  | none => .next s
  | some (w, s') =>
    match decode w with
    | .ok i => exec i s'
    | .error _ => .refused .unusedPinCode

/-- A step. A run marked refused is stuck (rules R24, R69, spec/93 U41). -/
def step (s : State) : Host.Outcome State Fault Refusal :=
  match s.refused with
  | some r => .fault (.stuckAfterRefusal r)
  | none =>
    match takeMove s with
    | (.host, s') => hostMove s'
    | (.engine e, s') => .next (engineStep e s')

/-- `s` with the instruction of the table word `w` as HOST's next operation, and HOST the next to move. Log entry 8
says how a program comes to run. -/
def State.withFetchWord (s : State) (nbits w : Nat) : State :=
  { s with hostOps := tableHostWord nbits w :: s.hostOps, sched := .host :: s.sched }

end Sys2Proof.Machine
end

