-- ==== Sys2Proof/Machine/Driver.lean ====
section
/-! DEFINITION. The driver operations of the spec as host programs: sequences of bus transactions and pin operations
(rules R240 to R248, R260 to R265, R330 to R343, R504 to R508), and how one runs beside ENGINE. HOST's variables are the
program's own and no part of the state (rule R70). -/

namespace Sys2Proof.Machine

open Sys2Proof

/-- A host program: each step is one bus transaction, one pin operation or one read of CANCEL, and what comes after may
depend on the answer. -/
inductive HostProg (α : Type) where
  | ret (a : α)
  | rd (a : RegAddr) (k : Byte → HostProg α)
  | wr (a : RegAddr) (v : Byte) (k : HostProg α)
  | pin (i : Instr) (k : Bool → HostProg α)
  | cancel (k : Bool → HostProg α)

/-- One program after another. -/
def andThen {α β : Type} (p : HostProg α) (f : α → HostProg β) : HostProg β :=
  match p with
  | .ret a => f a
  | .rd a k => .rd a fun t => andThen (k t) f
  | .wr a v k => .wr a v (andThen k f)
  | .pin i k => .pin i fun b => andThen (k b) f
  | .cancel k => .cancel fun b => andThen (k b) f

/-- The status codes, in the source's order (rule R400). -/
inductive Status where
  | ok
  | error
  | collision
  | timeout
  | noRoom
  | internalError
  | invalid
  | crcWrong
  | mifareNack
  | canceled
deriving DecidableEq, Repr

/-- The ordinals of rule R400. No rule reads them. -/
def statusOrdinal : Status → Nat
  | .ok => 0
  | .error => 1
  | .collision => 2
  | .timeout => 3
  | .noRoom => 4
  | .internalError => 5
  | .invalid => 6
  | .crcWrong => 7
  | .mifareNack => 8
  | .canceled => 9

/-! ### Pseudo-operations (rules R154, R240 to R248) -/

/-- `SETB r, m` (rule R240): a read and a write, not atomic (rule R117). -/
def setBits (r : RegAddr) (m : Byte) : HostProg Unit := .rd r fun t => .wr r (t ||| m) (.ret ())

/-- `CLRB r, m` (rule R241). -/
def clearBits (r : RegAddr) (m : Byte) : HostProg Unit := .rd r fun t => .wr r (t &&& ~~~m) (.ret ())

/-- `WRB r, m, v`, the source's `writeBits` (rule R242). -/
def writeBits (r : RegAddr) (m v : Byte) : HostProg Unit :=
  .rd r fun t => .wr r ((t &&& ~~~m) ||| (v &&& m)) (.ret ())

/-- `FIFOW b0, ...` (rules R154, R206). -/
def fifoWrites : List Byte → HostProg Unit
  | [] => .ret ()
  | b :: bs => .wr fifoDataReg b (fifoWrites bs)

/-- `FIFOR n -> d` (rules R154, R207). -/
def fifoReads : Nat → HostProg (List Byte)
  | 0 => .ret []
  | n + 1 => .rd fifoDataReg fun b => andThen (fifoReads n) fun bs => .ret (b :: bs)

/-- `POLL r, m, N` (rule R243): the byte in which a bit of the mask was seen, or `none` for EXHAUSTED. -/
def poll (r : RegAddr) (m : Byte) : Nat → HostProg (Option Byte)
  | 0 => .ret none
  | n + 1 => .rd r fun t => if t &&& m ≠ 0 then .ret (some t) else poll r m n

/-- `read(register)` (rule R244). -/
def readRegister (r : RegAddr) : HostProg Byte := .rd r .ret

/-- `write(register, byte)` (rule R244). -/
def writeRegister (r : RegAddr) (v : Byte) : HostProg Unit := .wr r v (.ret ())

/-- `startCommand(command)` (rule R245): RcvOff = 0 and PowerDown = 0. -/
def startCommand (c : BitVec 4) : HostProg Unit := .wr commandReg (c.setWidth 8) (.ret ())

/-- `antennaOn()` (rule R246): "when the antenna is already on, it makes no write". -/
def driverAntennaOn : HostProg Unit :=
  .rd txControlReg fun t => if t &&& 0x03 ≠ 0x03 then .wr txControlReg (t ||| 0x03) (.ret ()) else .ret ()

/-- `antennaOff()` (rule R247). -/
def driverAntennaOff : HostProg Unit := clearBits txControlReg 0x03

/-- `softPowerDown()` (rule R248). -/
def softPowerDown : HostProg Unit := .wr commandReg 0x10 (.ret ())

/-! ### The CRC engine's driver (rules R260 to R265) -/

/-- `computeCrc(data)` (rule R260): the CRC with OK, or the status it ends with (`90_conflicts.md` C1). -/
def computeCrc (data : List Byte) : HostProg (Except Status Word16) :=
  if Config.fifoDepth < data.length then .ret (.error .noRoom)
  else
    .wr commandReg 0x00 <| .wr divIrqReg 0x04 <| .wr fifoLevelReg 0x80 <|
    andThen (fifoWrites data) fun _ =>
    .wr commandReg 0x03 <|
    andThen (poll divIrqReg 0x04 Config.crcPollBudget) fun r =>
    match r with
    | none => .wr commandReg 0x00 (.ret (.error .timeout))
    | some _ =>
      .wr commandReg 0x00 <| .rd crcResultRegL fun lo => .rd crcResultRegH fun hi => .ret (.ok (hi ++ lo))

/-- `appendCrc(frame)` (rule R264): low byte first (rules R103, R262). -/
def appendCrc (frame : List Byte) : HostProg (Except Status (List Byte)) :=
  andThen (computeCrc frame) fun r =>
    match r with
    | .error s => .ret (.error s)
    | .ok c => .ret (.ok (frame ++ [lowByte c, highByte c]))

/-- `verifyCrc(frame)` (rule R265). -/
def verifyCrc (frame : List Byte) : HostProg Status :=
  if frame.length < 2 then .ret .invalid
  else
    andThen (computeCrc (frame.take (frame.length - 2))) fun r =>
      match r with
      | .error s => .ret s
      | .ok c => .ret (if frame.drop (frame.length - 2) = [lowByte c, highByte c] then .ok else .crcWrong)

/-! ### The bit-framer's driver (rules R330 to R343) -/

/-- The options of `transceive` (rule R330). -/
structure TransceiveOptions where
  checkCrc : Bool
  rxAlign : Nat
  expectLen : Nat
deriving DecidableEq, Repr

/-- The result of `transceive` (rule R340). -/
structure TransceiveResult where
  status : Status
  recv : List Byte
  validBits : Nat
deriving DecidableEq, Repr

/-- The wait of step 4 (rule R333), over the poll iterations left: `true` when RxIRq was seen, or the status that ended
the wait. The check of CANCEL comes before the read (rule R334). -/
def awaitReception : Nat → HostProg (Except Status Unit)
  | 0 => .ret (.error .timeout)
  | n + 1 =>
    .cancel fun c =>
      if c then .ret (.error .canceled)
      else
        .rd comIrqReg fun t =>
          if t &&& 0x20 ≠ 0 then .ret (.ok ())
          else if t &&& 0x01 ≠ 0 then .ret (.error .timeout)
          else awaitReception n

/-- Step 7 (rule R339). -/
def checkReplyCrc (recv : List Byte) (vb : Nat) : HostProg TransceiveResult :=
  if recv.length < 2 then .ret ⟨.invalid, recv, vb⟩
  else if vb ≠ 0 then .ret ⟨.invalid, recv, vb⟩
  else andThen (verifyCrc recv) fun s => .ret ⟨s, recv, vb⟩

/-- Steps 5 to 7 (rules R336 to R340). -/
def takeReply (options : TransceiveOptions) : HostProg TransceiveResult :=
  .rd errorReg fun e =>
    if e &&& 0x13 ≠ 0 then .ret ⟨.error, [], 0⟩
    else
      .rd fifoLevelReg fun f =>
        andThen (fifoReads (f &&& 0x7F).toNat) fun recv =>
          .rd controlReg fun c =>
            let vb := (c &&& 0x07).toNat
            if e &&& 0x08 ≠ 0 then .ret ⟨.collision, recv, vb⟩
            else if options.checkCrc then checkReplyCrc recv vb
            else .ret ⟨.ok, recv, vb⟩

/-- `transceive(sendData, validBits, options)` (rules R330 to R343). It makes exactly one transmission (rule R341). -/
def transceive (sendData : List Byte) (validBits : Nat) (options : TransceiveOptions) : HostProg TransceiveResult :=
  if 7 < validBits ∨ 7 < options.rxAlign then .ret ⟨.internalError, [], 0⟩
  else if sendData = [] then .ret ⟨.internalError, [], 0⟩
  else if Config.fifoDepth < sendData.length then .ret ⟨.noRoom, [], 0⟩
  else
    .wr commandReg 0x00 <| .wr comIrqReg 0x7F <| .wr fifoLevelReg 0x80 <|
    .wr bitFramingReg (BitVec.ofNat 8 (options.rxAlign * 16 + validBits)) <|
    andThen (fifoWrites sendData) fun _ =>
    .wr commandReg 0x0C <|
    andThen (setBits bitFramingReg 0x80) fun _ =>
    andThen (awaitReception (Config.waitBudget options.expectLen)) fun r =>
    match r with
    | .error s => .ret ⟨s, [], 0⟩
    | .ok _ => takeReply options

/-- The collision position the host uses (rule R156), from the bytes it has read at CollReg and at ErrorReg: CollPos, with
0 standing for 32, "valid only if CollPosNotValid = 0 and ErrorReg.CollErr = 1". -/
def hostCollisionPosition (coll err : Byte) : Option Nat :=
  if err.getLsbD 3 = true ∧ coll.getLsbD 5 = false then
    some (if coll &&& 0x1F = 0 then 32 else (coll &&& 0x1F).toNat)
  else none

/-- The host reads the collision position after a reception (rules R156, R315). -/
def readCollisionPosition : HostProg (Option Nat) :=
  .rd errorReg fun e => .rd collReg fun c => .ret (hostCollisionPosition c e)

/-! ### The driver's reset() (rules R504 to R508) -/

/-- WAITPD (rule R505): `true` when PowerDown was seen 0 within the budget. -/
def waitPowerDown : Nat → HostProg Bool
  | 0 => .ret false
  | n + 1 => .rd commandReg fun t => if t &&& 0x10 = 0 then .ret true else waitPowerDown n

/-- The configuration `reset()` writes (rule R505). -/
def resetConfiguration : HostProg Unit :=
  .wr tModeReg 0x80 <| .wr tPrescalerReg 0xA9 <| .wr tReloadRegH 0x03 <| .wr tReloadRegL 0xE8 <|
  .wr txASKReg 0x40 <| .wr modeReg 0x3D <| .wr txModeReg 0x00 <| .wr rxModeReg 0x00 <|
  .wr bitFramingReg 0x00 driverAntennaOn

/-- `reset()` (rule R505): OK or TIMEOUT. -/
def driverReset : HostProg Status :=
  .wr commandReg 0x00 <|
  andThen (waitPowerDown Config.resetPollBudget) fun awake =>
  if awake then
    .wr commandReg 0x0F <|
    andThen (waitPowerDown Config.resetPollBudget) fun done =>
    if done then andThen resetConfiguration fun _ => .ret .ok else .ret .timeout
  else .ret .timeout

/-- `init()` (rule R504), after the transport and the pins are acquired, which is outside the block. -/
def driverInit : HostProg Status := .pin .releaseReset fun _ => driverReset

/-- `cleanup()` (rule R507): no bus transaction, and the reset pin stays as it is. -/
def driverCleanup : HostProg Unit := .ret ()

/-! ### Running a host program beside ENGINE -/

/-- The ENGINE moves that the schedule places before HOST's next step, and the state with them used up: up to the next
move of HOST. `none` when the schedule ends first. -/
def engineMovesOf : List Move → List EngineStep × Option (List Move)
  | [] => ([], none)
  | .host :: rest => ([], some rest)
  | .engine e :: rest => let (es, r) := engineMovesOf rest; (e :: es, r)

/-- ENGINE moves before HOST's next step, in any number (rule R104): those of the schedule, and where it ends a free
number of free ones. -/
def enginePhase (s : State) : State :=
  match engineMovesOf s.sched with
  | (es, some rest) => engineSteps es { s with sched := rest }
  | (es, none) => engineSteps (es ++ Config.freeEngineRun s.draws) (bumpDraws 1 { s with sched := [] })

/-- One host operation of a running program, ENGINE's moves before it: the state after it, or `none` when the run is
marked refused or the operation is stopped. -/
def transact (i : Instr) (s : State) : Option State :=
  let s₁ := enginePhase s
  match s₁.refused with
  | some _ => none
  | none =>
    match exec i s₁ with
    | .next s₂ => some s₂
    | .fault _ => none
    | .refused _ => none

/-- CANCEL as HOST reads it (rule R70): the value that stands ready, or a free one. -/
def readCancel (s : State) : Bool × State :=
  match s.cancels with
  | b :: rest => (b, { s with cancels := rest })
  | [] => (Config.freeCancel s.draws, bumpDraws 1 s)

/-- What a run of a host program leaves: its value (`none` when the run stopped on a refusal), the state, and the words of
the operations it issued. -/
structure DriverRun (α : Type) where
  value : Option α
  state : State
  trace : List HostWord
deriving Repr

/-- A run with one more operation before it. -/
def issued {α : Type} (w : HostWord) (r : DriverRun α) : DriverRun α := { r with trace := w :: r.trace }

/-- A host program run from `s`: each operation goes to the chip as the instruction its word decodes to. -/
def runProg {α : Type} : HostProg α → State → DriverRun α
  | .ret a, s => ⟨if s.refused.isSome then none else some a, s, []⟩
  | .rd a k, s =>
    match transact (decodeBus false (carrier a) 0) s with
    | none => ⟨none, enginePhase s, []⟩
    | some s' => issued (.bus (busWord false (carrier a) 0)) (runProg (k s'.busOut) s')
  | .wr a v k, s =>
    match transact (decodeBus true (carrier a) v) s with
    | none => ⟨none, enginePhase s, []⟩
    | some s' => issued (.bus (busWord true (carrier a) v)) (runProg k s')
  | .pin i k, s =>
    match transact i s with
    | none => ⟨none, enginePhase s, []⟩
    | some s' => issued (encode i) (runProg (k s'.pinOut) s')
  | .cancel k, s => runProg (k (readCancel s).1) (readCancel s).2

end Sys2Proof.Machine
end

