-- ==== Sys2Proof/Machine/Run.lean ====
section
/-! DEFINITION. Runs of the machine and weak fairness (rules R104, R427): which runs the spec admits, beside what one step
can do. -/

namespace Sys2Proof.Machine

open Sys2Proof

/-- The agent that moves in the step from `s` (rule R104). -/
def nextMove (s : State) : Move := (takeMove s).1

/-- HOST's program adds the operations `ws` to those HOST has yet to issue. -/
def State.loadOps (ws : List HostWord) (s : State) : State := { s with hostOps := s.hostOps ++ ws }

/-- A run without end: each state is the step's next state after the one before, where HOST's program has added the
operations `load n` before the step. No rule bounds how many operations HOST issues, and `load` sets no bound either: log
entry 20. A run that stops on a refusal has an end, and fairness asks nothing of it. -/
def IsRun (load : Nat → List HostWord) (σ : Nat → State) : Prop :=
  ∀ n, step ((σ n).loadOps (load n)) = .next (σ (n + 1))

/-- From any point on, the step `e` does not stay enabled for ever without being taken. -/
def FairTo (e : EngineStep) (σ : Nat → State) : Prop :=
  ∀ n, (∀ m, n ≤ m → engineEnabled e (σ m) = true) → ∃ m, n ≤ m ∧ nextMove (σ m) = .engine e

/-- "Under weak fairness, every ENGINE step that stays enabled is eventually taken" (rule R104), OVERHEAT among them where
ALLOW_OVERHEAT admits it, for it "is an ENGINE step" (rule R409). A claim that needs one step alone takes FairTo of it.
Fairness over endless runs only: log entry 20. -/
def WeaklyFair (σ : Nat → State) : Prop := ∀ e : EngineStep, FairTo e σ

end Sys2Proof.Machine
end

