-- ==== Sys2Proof/Safety.lean ====
section
/-! DEFINITION. What counts as a safe run, and the invariant every step keeps: in the terms the statements use. -/

namespace Sys2Proof.Machine

open Sys2Proof

/-- A safe state: the run carries no refusal mark (rule R69). "Every driver sequence in this spec, run after `reset()`,
avoids every refusal" (rule R403). -/
def Safe (s : State) : Prop := s.refused = none

/-- The invariant of the block. -/
structure ChipInv (s : State) : Prop where
  /-- The FIFO holds at most FIFO_DEPTH bytes (rules R11, R45). -/
  fifo_fits : s.fifo.length ≤ Config.fifoDepth
  /-- TModeReg and the prescaler agree on TPrescaler_Hi (rules R57, R210). -/
  prescaler_hi : s.tPrescaler.extractLsb' 8 4 = s.tMode.extractLsb' 0 4
  /-- The transceiver has a phase exactly while Transceive is active (rule R300). -/
  modem_phase : s.modem = .idle ↔ s.cmd ≠ .transceive
  /-- A request to transmit is pending only in WAIT_START (rules R76, R308). -/
  request_waits : s.txReq = true → s.modem = .waitStart
  /-- A reply is pending only in WAIT_DATA, with the receiver on and the RF field there (rules R311, R312, R318). -/
  reply_waits : s.pendingResp ≠ none → s.modem = .waitData ∧ s.rcvOff = false ∧ fieldOn s = true
  /-- A SoftReset is active only until its completion step (rule R225). -/
  softReset_busy : s.cmd = .softReset → s.pdBusy = true
  /-- Soft power-down and a reset or wake-up in progress exclude each other (rules R203, R228). -/
  powerDown_not_busy : s.powerDown = true → s.pdBusy = false
  /-- CRCErr is never set (rules R306, R411), and the reserved bit of ErrorReg holds nothing (rule R42). -/
  no_crcErr : s.err &&& 0x24 = 0
  /-- The reserved bits of DivIEnReg hold nothing (rules R34, R39). -/
  divIEn_reserved : s.divIEn &&& reservedBits .divIEn = 0
  /-- The bytes outside the block stand in canonical form. -/
  other_wf : s.other.wf = true

/-! ### Words the statements use -/

/-- The condition under which a bus transaction reaches its register (rules R200, R201): the reset input is released,
and no reset or wake-up is in progress. -/
structure BusReady (s : State) : Prop where
  released : s.nrst = true
  settled : s.pdBusy = false

/-- A bus read at `a` completes and changes nothing but what HOST was answered, and the answer shows `v` at the bits of
`mask`. The bits outside `mask` are the reserved bits, which are drawn (rule R34). -/
def ReadsAs (a : RegAddr) (mask v : Byte) (s : State) : Prop :=
  ∃ b : Byte, exec (.rd a) s = .next { s with busOut := b, draws := s.draws + 1 } ∧ b &&& mask = v

/-- The request flags that rule R112 sets when the FIFO of `s` becomes `fifo` and its water level becomes `level`:
HiAlertIRq or LoAlertIRq where the alert of rule R43 "went from 0 to 1". -/
def alertRise (s : State) (fifo : List Byte) (level : BitVec 6) : BitVec 7 :=
  (if s.waterLevel.toNat < Config.fifoDepth - s.fifo.length ∧ Config.fifoDepth - fifo.length ≤ level.toNat
    then 0x08 else 0)
    ||| (if s.waterLevel.toNat < s.fifo.length ∧ fifo.length ≤ level.toNat then 0x04 else 0)

/-- A CommandReg write reaches `startCommand_engine` or a refusal of its code (rule R203): the bus is ready and the chip
is not in soft power-down. -/
structure CommandReady (s : State) : Prop extends BusReady s where
  awake : s.powerDown = false

/-- The conditions every ENGINE step of a running chip has in common (rules R254, R256, R310, R314, R427). -/
structure EngineReady (s : State) : Prop where
  released : s.nrst = true
  settled : s.pdBusy = false
  awake : s.powerDown = false

/-- The host operations that write CommandReg (rules R143, R144). -/
def writesCommandReg : Instr → Bool
  | .wr a _ => a == 0x01
  | .idle _ | .mem _ | .genRandId _ | .calcCrc _ | .transmit _ | .reserved5 _ | .reserved6 _ | .noCmdChange _
  | .receive _ | .reserved9 _ | .reservedA _ | .reservedB _ | .transceive _ | .reservedD _ | .mfAuthent _
  | .softReset _ | .powerDown _ _ => true
  | .rd _ | .badAddr _ _ _ | .badAddr6 _ _ _ | .irqSet _ | .irqClear _ | .divIrqSet _ | .divIrqClear _ | .fifoPush _
  | .fifoPop | .flushBuffer _ | .tStopNow _ | .tStartNow _ | .startSend _ _ | .assertReset | .releaseReset
  | .irqPin => false

/-- The host operations whose command code starts a command, where the chip takes it (rules R203, R412 (a): "not
NoCmdChange, not a power-down write"; the refused codes start none). -/
def startsCommand : Instr → Bool
  | .wr a d => a == 0x01 && !d.getLsbD 4 && [0x0#4, 0x3#4, 0xC#4, 0xF#4].contains (d.extractLsb' 0 4)
  | .idle _ | .calcCrc _ | .transceive _ | .softReset _ => true
  | .rd _ | .badAddr _ _ _ | .badAddr6 _ _ _ | .mem _ | .genRandId _ | .transmit _ | .reserved5 _ | .reserved6 _
  | .noCmdChange _ | .receive _ | .reserved9 _ | .reservedA _ | .reservedB _ | .reservedD _ | .mfAuthent _
  | .powerDown _ _ | .irqSet _ | .irqClear _ | .divIrqSet _ | .divIrqClear _ | .fifoPush _ | .fifoPop | .flushBuffer _
  | .tStopNow _ | .tStartNow _ | .startSend _ _ | .assertReset | .releaseReset | .irqPin => false

/-- The host operations that are bus writes at an address of 0x00 to 0x3F (rules R141, R158). -/
def isBusWrite (i : Instr) : Bool :=
  match encode i with
  | .bus w => w.getLsbD 16 && !w.getLsbD 15 && !w.getLsbD 14
  | .pin _ => false

/-! ### The premises of rule R531 on the interleaving

`sched` begins with the moves of one driver call, any number of ENGINE moves between HOST's moves, and goes on with `rest`.
Each part of the wait ends with the step waited for, before HOST has made as many moves as its budget. -/

/-- PROMPT_CRC for `computeCrc` on `n` bytes: after the `n + 4` writes, the last of which starts CalcCRC, `n` CRC_BYTE moves
and then CRC_DONE come before CRC_POLL_BUDGET reads run out; four moves of HOST follow. -/
def PromptCrc (n : Nat) (sched rest : List Move) : Prop :=
  ∃ writes wait reads : List Move,
    sched = .host :: writes ++ .host :: wait ++ .engine .crcDone :: reads ++ rest ∧
    writes.count .host = n + 2 ∧
    n ≤ wait.count (.engine .crcByte) ∧ wait.count .host < Config.crcPollBudget ∧ reads.count .host = 4

/-- PROMPT_TX for `transceive` on `sent` bytes: after the `sent + 7` operations, the last of which sets StartSend, TX comes
before the `budget` reads run out. `polls` is how many reads come before it, and the schedule goes on with `after`. -/
def PromptTx (sent budget polls : Nat) (sched after : List Move) : Prop :=
  ∃ writes before : List Move,
    sched = .host :: writes ++ .host :: before ++ .engine .tx :: after ∧
    writes.count .host = sent + 5 ∧ .engine .tx ∉ before ∧ before.count .host = polls ∧ polls < budget

/-- PROMPT_REPLY for `transceive`, with PROMPT_TX, on `sent` bytes and a reply of `received` bytes: after TX, RX comes before
the `budget` reads run out, no TIMER_EXPIRE between the two, and `received + 4` moves of HOST follow. `polls` is how many
reads come before RX. -/
def PromptReply (sent received budget polls : Nat) (sched rest : List Move) : Prop :=
  ∃ (sentPolls : Nat) (between reads : List Move),
    PromptTx sent budget sentPolls sched (between ++ .engine .rx :: reads ++ rest) ∧
    .engine .rx ∉ between ∧ .engine .timerExpire ∉ between ∧
    sentPolls + between.count .host = polls ∧ polls < budget ∧ reads.count .host = received + 4

/-- NO_OVERHEAT for one call: ALLOW_OVERHEAT is false, or no OVERHEAT comes in the moves before `rest`. -/
def NoOverheat (s : State) (rest : List Move) : Prop :=
  s.allowOverheat = true → ∃ call : List Move, s.sched = call ++ rest ∧ .engine .overheat ∉ call

/-- The wait of `reset()` called in `s` for a wake-up or reset in progress, from its first write to the read that sees it
over, under PROMPT_RESET. A chip that is on has nothing to wait for. Otherwise the step that ends it comes before
RESET_POLL_BUDGET reads run out. No TX comes between it and the SoftReset where it would be refused: a request left over
from before stands again when soft power-down ends. -/
def PromptWake (s : State) (wake start : List Move) : Prop :=
  if s.powerDown = false ∧ s.pdBusy = false then wake.count .host = 0
  else
    let done : Move := .engine (if s.pdBusy = true ∧ s.cmd = .softReset then .resetDone else .wakeDone)
    ∃ first last : List Move,
      wake = first ++ done :: last ∧ done ∉ first ∧ first.count .host < Config.resetPollBudget ∧ last.count .host = 0 ∧
      (s.txReq = false ∨ (radioAdmitted s = true ∧ s.fifo ≠ []) ∨ .engine .tx ∉ last ++ start)

/-- PROMPT_RESET for `reset()` called in `s`: a wake-up or reset in progress ends in time (PromptWake), and the RESET_DONE of
the SoftReset comes before RESET_POLL_BUDGET reads run out. No OVERHEAT comes after it where ALLOW_OVERHEAT admits one
(NO_OVERHEAT). -/
def PromptReset (s : State) (rest : List Move) : Prop :=
  ∃ wake start second reads : List Move,
    s.sched = .host :: wake ++ .host :: start ++ .host :: second ++ .engine .resetDone :: reads ++ rest ∧
    PromptWake s wake start ∧ start.count .host = 0 ∧
    .engine .resetDone ∉ second ∧ second.count .host < Config.resetPollBudget ∧
    reads.count .host = 12 ∧ (s.allowOverheat = true → .engine .overheat ∉ reads)

end Sys2Proof.Machine
end

