-- ==== Sys2Proof/Certificates/Slice0/Obligations.lean ====
section
/-! DEFINITION. The statements of this model, from the numbered rules of spec/. A full equation of the next state says an
instruction's effect and its frame at once: every field that the equation does not name keeps its value, all of memory
(the FIFO and the stored bytes `other`) included. -/

open Sys2Proof Sys2Proof.Machine

/-! ### Encoding -/

/-- Decode and encode agree, for every well-formed instruction (rules R141, R144 to R148, R157, R158). -/
def Obligations.DecodeEncodeRoundTrip : Prop :=
  ∀ i : Instr, i.wellFormed = true → decode (encode i) = .ok i

/-- Rule R152: every 17-bit word decodes to a well-formed instruction, its row is a row of the table that matches the
word, and it is the only matching row with as many mask bits: "the row with the most mask bits set matches". -/
def Obligations.EveryBusWordTakesTheMostSpecificRow : Prop :=
  ∀ w : BitVec 17, ∃ i : Instr, decode (.bus w) = .ok i ∧ i.wellFormed = true ∧
    ∃ r ∈ busRows, r.mnemonic = mnemonicOf i ∧ rowMatches 17 r w = true ∧
      ∀ r' ∈ busRows, rowMatches 17 r' w = true → r' = r ∨ maskOnes 17 r'.mask < maskOnes 17 r.mask

/-- Sanity: words written out from rules R144 to R148 and R158 decode to the operations they stand for, one of every
format, and the three PIN codes; the unused PIN code is rejected by name. -/
def Obligations.SpecWordsDecode : Prop :=
  decode (.bus 0x00A00) = .ok (.rd 0x0A) ∧ decode (.bus 0x1113D) = .ok (.wr 0x11 0x3D) ∧
  decode (.bus 0x08000) = .ok (.badAddr false 0 0) ∧ decode (.bus 0x14000) = .ok (.badAddr6 true 0 0) ∧
  decode (.bus 0x10100) = .ok (.idle false) ∧ decode (.bus 0x10103) = .ok (.calcCrc false) ∧
  decode (.bus 0x1012C) = .ok (.transceive true) ∧ decode (.bus 0x1010F) = .ok (.softReset false) ∧
  decode (.bus 0x10110) = .ok (.powerDown false 0) ∧ decode (.bus 0x1047F) = .ok (.irqClear 0x7F) ∧
  decode (.bus 0x104A0) = .ok (.irqSet 0x20) ∧ decode (.bus 0x10504) = .ok (.divIrqClear 0x04) ∧
  decode (.bus 0x10594) = .ok (.divIrqSet 0x14) ∧ decode (.bus 0x10950) = .ok (.fifoPush 0x50) ∧
  decode (.bus 0x00900) = .ok .fifoPop ∧ decode (.bus 0x10A80) = .ok (.flushBuffer 0) ∧
  decode (.bus 0x10CC0) = .ok (.tStopNow 0x40) ∧ decode (.bus 0x10C40) = .ok (.tStartNow 0) ∧
  decode (.bus 0x10D91) = .ok (.startSend 1 1) ∧ decode (.bus 0x10D07) = .ok (.wr 0x0D 0x07) ∧
  decode (.pin 0) = .ok .assertReset ∧ decode (.pin 1) = .ok .releaseReset ∧ decode (.pin 2) = .ok .irqPin ∧
  decode (.pin 3) = .error .unusedPinCode

/-! ### The step -/

/-- A step runs the decoded operation: when HOST moves and its next word decodes to `i`, the step is `exec i` at the
state with that word and that move used up. No program counter moves, for the block has none (rule R36). The queues
hostOps and sched are the model's form of HOST and of the interleaving: log entries 4 and 8. -/
def Obligations.StepRunsTheDecodedOperation : Prop :=
  ∀ (s : State) (w : HostWord) (ops : List HostWord) (moves : List Move) (i : Instr),
    s.refused = none → s.sched = .host :: moves → s.hostOps = w :: ops → decode w = .ok i →
      step s = exec i { s with sched := moves, hostOps := ops }

/-- The other moves of rule R104: an ENGINE move makes that ENGINE step; HOST without an operation left does nothing;
a word that is no operation is rejected by name; and with no schedule the move is free. The queue sched, the stutter
of a move without effect and the free move are the model's choices: log entry 4. The refusal of the unused PIN code:
log entry 1. -/
def Obligations.StepMakesTheNamedMove : Prop :=
  (∀ (s : State) (e : EngineStep) (moves : List Move), s.refused = none → s.sched = .engine e :: moves →
    step s = .next (engineStep e { s with sched := moves })) ∧
  (∀ (s : State) (moves : List Move), s.refused = none → s.sched = .host :: moves → s.hostOps = [] →
    step s = .next { s with sched := moves }) ∧
  (∀ (s : State) (w : HostWord) (ops : List HostWord) (moves : List Move), s.refused = none →
    s.sched = .host :: moves → s.hostOps = w :: ops → decode w = .error .unusedPinCode →
      step s = .refused .unusedPinCode) ∧
  (∀ s : State, s.refused = none → s.sched = [] →
    step s = step { s with sched := [Config.freeMove s.draws], draws := s.draws + 1 })

/-- `refuse(reason)` (rules R24, R69, R403) sets the mark, keeps the first reason, records the refusal and does
nothing else; and the mark ends the run: a marked state has no next state. That a second refusal keeps the first
reason, and the form of the stop, are the model's choices: log entry 1. -/
def Obligations.RefusalMarksTheRunForGood : Prop :=
  (∀ (r : RefuseReason) (s : State), s.refused = none →
    refuse r s = { s with refused := some r, hist := s.hist ++ [.refused r] }) ∧
  (∀ (r r' : RefuseReason) (s : State), s.refused = some r' →
    refuse r s = { s with hist := s.hist ++ [.refused r] }) ∧
  (∀ (r : RefuseReason) (s : State), s.refused = some r → step s = .fault (.stuckAfterRefusal r))

/-! ### Reset state and invariant -/

/-- The reset values the spec gives (rules R31, R37 to R60, R73, R74, R503), field by field. The reset values of the
model's own fields, of the history and of the two drawn registers are not stated. -/
def Obligations.ResetState : Prop :=
  State.reset.cmd = .idle ∧ State.reset.rcvOff = true ∧ State.reset.powerDown = false ∧ State.reset.pdBusy = true ∧
  State.reset.comIEn = 0x80 ∧ State.reset.divIEn = 0x00 ∧ State.reset.comIrq = 0x14 ∧
  State.reset.mfinActIrq = false ∧ State.reset.crcIrq = false ∧ State.reset.err = 0x00 ∧ State.reset.fifo = [] ∧
  State.reset.waterLevel = 0x08 ∧ State.reset.startSend = false ∧ State.reset.rxAlign = 0 ∧
  State.reset.txLastBits = 0 ∧ State.reset.rxLastBits = 0 ∧ State.reset.valuesAfterColl = true ∧
  State.reset.collPosNotValid = true ∧ State.reset.mode = 0x3F ∧ State.reset.txMode = 0x00 ∧
  State.reset.rxMode = 0x00 ∧ State.reset.txControl = 0x80 ∧ State.reset.txASK = 0x00 ∧
  State.reset.tempSensClear = false ∧ State.reset.i2cForceHS = false ∧ State.reset.crc = 0xFFFF ∧
  State.reset.crcResult = 0xFFFF ∧ State.reset.crcReady = true ∧ State.reset.tMode = 0x00 ∧
  State.reset.tPrescaler = 0x000 ∧ State.reset.tReload = 0x0000 ∧ State.reset.tRunning = false ∧
  State.reset.modem = .idle ∧ State.reset.txReq = false ∧ State.reset.pendingResp = none ∧ State.reset.other = [] ∧
  State.reset.nrst = true ∧ State.reset.refused = none ∧ irqActive State.reset = false ∧
  irqPinLevel State.reset = true

/-- The invariant holds at reset. -/
def Obligations.InvariantHoldsAtReset : Prop := ChipInv State.reset

/-- Every step keeps the invariant, from every state that has it. ChipInv: the FIFO fits, the prescaler agrees with
TModeReg, the transceiver has a phase exactly under Transceive, requests and replies are pending only in their phase,
SoftReset is busy, power-down is not busy, CRCErr and reserved bits are 0, and the stored bytes are in canonical form.
-/
def Obligations.StepKeepsTheInvariant : Prop :=
  ∀ s s' : State, ChipInv s → step s = .next s' → ChipInv s'

/-! ### Bus reads -/

/-- Rules R107, R414: a read of any register but FIFODataReg completes and has no side effect; nothing changes but
what HOST was answered. A read of FIFODataReg is the row FIFO_POP. The returned byte and the draw counter are the
model's own fields: log entries 2 and 8. -/
def Obligations.ReadsHaveNoSideEffect : Prop :=
  (∀ (a : RegAddr) (s : State), s.nrst = true → a ≠ 0x09 →
    ∃ b : Byte, exec (.rd a) s = .next { s with busOut := b, draws := s.draws + 1 }) ∧
  (∀ s : State, exec (.rd 0x09) s = exec .fifoPop s)

/-- Rule R202: what the register reads return. First the registers that return what was stored in them (R38, R39, R47,
R51 to R55, R57 to R59, R61), then the flag and status registers: CommandReg (R37), ComIrqReg (R40), DivIrqReg (R41),
ErrorReg (R42), Status2Reg (R44, R63), FIFOLevelReg (R46), ControlReg (R48), BitFramingReg (R49), CollReg (R50), and
last Status1Reg (R43), which is computed at each read; each bit spelled as its weight. The reserved bits, which are
drawn (R34), are not spoken of. The answer is read in the model's own field busOut: log entries 2 and 8. That reserved
bits are drawn: log entry 10. -/
def Obligations.ReadsOfRegisters : Prop :=
  ∀ s : State, BusReady s →
    ReadsAs 0x02 0xFF s.comIEn s ∧ ReadsAs 0x03 0x94 (s.divIEn &&& 0x94) s ∧
    ReadsAs 0x0B 0x3F (s.waterLevel.setWidth 8) s ∧ ReadsAs 0x11 0xAB (s.mode &&& 0xAB) s ∧
    ReadsAs 0x12 0xF8 (s.txMode &&& 0xF8) s ∧ ReadsAs 0x13 0xFC (s.rxMode &&& 0xFC) s ∧
    ReadsAs 0x14 0xFF s.txControl s ∧ ReadsAs 0x15 0x40 (s.txASK &&& 0x40) s ∧ ReadsAs 0x2A 0xFF s.tMode s ∧
    ReadsAs 0x2B 0xFF (s.tPrescaler.setWidth 8) s ∧ ReadsAs 0x2C 0xFF ((s.tReload >>> 8).setWidth 8) s ∧
    ReadsAs 0x2D 0xFF (s.tReload.setWidth 8) s ∧ ReadsAs 0x37 0xFF Config.versionByte s ∧
    ReadsAs 0x01 0x3F ((if s.rcvOff then 0x20 else 0) ||| (if s.powerDown then 0x10 else 0) |||
      (match s.cmd with | .idle => 0x00 | .calcCrc => 0x03 | .transceive => 0x0C | .softReset => 0x0F)) s ∧
    ReadsAs 0x04 0xFF (s.comIrq.setWidth 8) s ∧
    ReadsAs 0x05 0x94 ((if s.mfinActIrq then 0x10 else 0) ||| (if s.crcIrq then 0x04 else 0)) s ∧
    ReadsAs 0x06 0xDF (s.err &&& 0xDF) s ∧
    ReadsAs 0x08 0xCF ((if s.tempSensClear then 0x80 else 0) ||| (if s.i2cForceHS then 0x40 else 0) |||
      (match s.modem with | .idle => 0x00 | .waitStart => 0x01 | .waitData => 0x05)) s ∧
    (s.fifo.length ≤ 64 → ReadsAs 0x0A 0xFF (BitVec.ofNat 8 s.fifo.length) s) ∧
    ReadsAs 0x0C 0xC7 (s.rxLastBits.setWidth 8) s ∧
    ReadsAs 0x0D 0xF7 ((if s.startSend then 0x80 else 0) ||| (s.rxAlign.setWidth 8 <<< 4) |||
      s.txLastBits.setWidth 8) s ∧
    ReadsAs 0x0E 0xBF ((if s.valuesAfterColl then 0x80 else 0) ||| (if s.collPosNotValid then 0x20 else 0) |||
      s.collPos.setWidth 8) s ∧
    ReadsAs 0x07 0x7B ((if s.crcReady = true ∧ s.crc = 0 then 0x40 else 0) ||| (if s.crcReady then 0x20 else 0) |||
      (if (s.comIEn &&& s.comIrq.setWidth 8 ≠ 0) ∨
          (s.divIEn.getLsbD 4 = true ∧ s.mfinActIrq = true) ∨ (s.divIEn.getLsbD 2 = true ∧ s.crcIrq = true)
        then 0x10 else 0) |||
      (if s.tRunning then 0x08 else 0) ||| (if 64 - s.fifo.length ≤ s.waterLevel.toNat then 0x02 else 0) |||
      (if s.fifo.length ≤ s.waterLevel.toNat then 0x01 else 0)) s

/-- Reads of values that are sometimes free: the CRC result (rules R56, R257), the timer counter (R60), a reserved
address (R32), and a register outside the block (R35), which returns the byte stored there, in any state, or is free
when nothing has been written. Where the value is free, the byte is the free value drawn at this read. The free
value's form is the model's choice: log entry 2. That TestBusReg and TestADCReg hold no written byte: log entry 22. -/
def Obligations.ReadsOfFreeValues : Prop :=
  (∀ s : State, BusReady s → ¬(s.cmd = .calcCrc ∧ s.crcReady = false) →
    ReadsAs 0x21 0xFF ((s.crcResult >>> 8).setWidth 8) s ∧ ReadsAs 0x22 0xFF (s.crcResult.setWidth 8) s) ∧
  (∀ s : State, BusReady s → s.tRunning = false →
    ReadsAs 0x2E 0xFF ((s.tCounter >>> 8).setWidth 8) s ∧ ReadsAs 0x2F 0xFF (s.tCounter.setWidth 8) s) ∧
  (∀ (a : RegAddr) (v : Byte) (s : State), BusReady s →
    a ∈ [0x16, 0x17, 0x18, 0x19, 0x1C, 0x1D, 0x1F, 0x24, 0x26, 0x27, 0x28, 0x29, 0x31, 0x32, 0x33, 0x34, 0x36, 0x38,
      0x39, 0x3A] → memRead s.other a.toNat = some v → ReadsAs a 0xFF v s) ∧
  (∀ (a : RegAddr) (s : State), BusReady s →
    ((a = 0x21 ∨ a = 0x22) ∧ s.cmd = .calcCrc ∧ s.crcReady = false) ∨ ((a = 0x2E ∨ a = 0x2F) ∧ s.tRunning = true) ∨
      a ∈ [0x00, 0x0F, 0x10, 0x1A, 0x1B, 0x1E, 0x20, 0x23, 0x25, 0x30, 0x3C, 0x3D, 0x3E, 0x3F] ∨
      (a ∈ [0x16, 0x17, 0x18, 0x19, 0x1C, 0x1D, 0x1F, 0x24, 0x26, 0x27, 0x28, 0x29, 0x31, 0x32, 0x33, 0x34, 0x36, 0x38,
        0x39, 0x3A] ∧ memRead s.other a.toNat = none) ∨ a = 0x35 ∨ a = 0x3B →
    exec (.rd a) s = .next { s with busOut := Config.freeBits 8 s.draws, draws := s.draws + 1 })

/-- Rules R65, R200, R501: while a reset or a wake-up is in progress a read answers a free byte and changes nothing,
the pop of FIFODataReg included; CommandReg alone is read, and shows PowerDown = 1. The free value's form is the
model's choice: log entry 2. -/
def Obligations.ReadsWhileBusy : Prop :=
  ∀ s : State, s.nrst = true → s.pdBusy = true →
    (∀ a : RegAddr, a ≠ 0x01 →
      exec (.rd a) s = .next { s with busOut := Config.freeBits 8 s.draws, draws := s.draws + 1 }) ∧
    exec .fifoPop s = .next { s with busOut := Config.freeBits 8 s.draws, draws := s.draws + 1 } ∧
    ReadsAs 0x01 0x3F ((if s.rcvOff then 0x20 else 0) ||| 0x10 |||
      (match s.cmd with | .idle => 0x00 | .calcCrc => 0x03 | .transceive => 0x0C | .softReset => 0x0F)) s

/-! ### Bus writes -/

/-- Rule R210: what a write of a plain R/W register stores. ModeReg, TxModeReg, RxModeReg and DivIEnReg store the bits
that are not reserved (the stored reserved bits are not spoken of); the others are ComIEnReg, Status2Reg (bits 7:6
only), CollReg (bit 7 only), TxASKReg, TModeReg with TPrescaler_Hi, TPrescalerReg, TReloadRegH and TReloadRegL.
Nothing else changes. What stays in stored reserved bits is not stated, but for TxASKReg: log entry 10. In soft
power-down too (BusReady admits it), where that the write takes effect is the model's reading: log entry 13. -/
def Obligations.WritesOfPlainRegisters : Prop :=
  ∀ (v : Byte) (s : State), BusReady s →
    (∃ m : Byte, exec (.wr 0x11 v) s = .next { s with mode := m } ∧ m &&& 0xAB = v &&& 0xAB) ∧
    (∃ m : Byte, exec (.wr 0x12 v) s = .next { s with txMode := m } ∧ m &&& 0xF8 = v &&& 0xF8) ∧
    (∃ m : Byte, exec (.wr 0x13 v) s = .next { s with rxMode := m } ∧ m &&& 0xFC = v &&& 0xFC) ∧
    (∃ m : Byte, exec (.wr 0x03 v) s = .next { s with divIEn := m } ∧ m &&& 0x94 = v &&& 0x94) ∧
    exec (.wr 0x02 v) s = .next { s with comIEn := v } ∧
    exec (.wr 0x08 v) s = .next { s with tempSensClear := v.getLsbD 7, i2cForceHS := v.getLsbD 6 } ∧
    exec (.wr 0x0E v) s = .next { s with valuesAfterColl := v.getLsbD 7 } ∧
    exec (.wr 0x15 v) s = .next { s with txASK := v } ∧
    exec (.wr 0x2A v) s = .next { s with
      tMode := v, tPrescaler := (s.tPrescaler &&& 0x0FF) ||| ((v &&& 0x0F).setWidth 12 <<< 8) } ∧
    exec (.wr 0x2B v) s = .next { s with tPrescaler := (s.tPrescaler &&& 0xF00) ||| v.setWidth 12 } ∧
    exec (.wr 0x2C v) s = .next { s with tReload := (s.tReload &&& 0x00FF) ||| (v.setWidth 16 <<< 8) } ∧
    exec (.wr 0x2D v) s = .next { s with tReload := (s.tReload &&& 0xFF00) ||| v.setWidth 16 }

/-- Rules R47, R54, R112, R210, R312: the two R/W registers whose write acts at once. A write of TxControlReg stores
the byte, and switching the antenna off loses a pending reply. A write of WaterLevelReg stores the level, and an alert
that rises with it sets its request flag. In soft power-down too (BusReady admits it), where that the write takes
effect is the model's reading: log entry 13. -/
def Obligations.WritesOfTxControlAndWaterLevelActAtOnce : Prop :=
  ∀ (v : Byte) (s : State), BusReady s →
    (v &&& 0x03 = 0x03 → exec (.wr 0x14 v) s = .next { s with txControl := v }) ∧
    (v &&& 0x03 ≠ 0x03 → exec (.wr 0x14 v) s = .next { s with txControl := v, pendingResp := none }) ∧
    exec (.wr 0x0B v) s = .next { s with
      waterLevel := v.extractLsb' 0 6, comIrq := s.comIrq ||| alertRise s s.fifo (v.extractLsb' 0 6) }

/-- Rule R35: a write of a register outside the block stores the byte at that address and nowhere else; the next read
of it returns the byte, and every other address reads as before. That stored bytes stand in one canonical form is the
model's. In soft power-down too (BusReady admits it), where that the write takes effect is the model's reading: log
entry 13. -/
def Obligations.RegistersOutsideTheBlockHoldTheirByte : Prop :=
  ∀ (a : RegAddr) (v : Byte) (s : State), BusReady s →
    a ∈ [0x16, 0x17, 0x18, 0x19, 0x1C, 0x1D, 0x1F, 0x24, 0x26, 0x27, 0x28, 0x29, 0x31, 0x32, 0x33, 0x34, 0x36, 0x38,
      0x39, 0x3A] → s.other.wf = true →
    ∃ t : State, exec (.wr a v) s = .next t ∧ t = { s with other := t.other } ∧ t.other.wf = true ∧
      ReadsAs a 0xFF v t ∧ ∀ n : Nat, n ≠ a.toNat → memRead t.other n = memRead s.other n

/-- Rules R32, R201: a write of a read-only register (ErrorReg, Status1Reg, CRCResultReg, TCounterValReg, VersionReg,
TestBusReg, TestADCReg) or of a reserved address changes nothing; and so does a write of FIFOLevelReg or ControlReg
with no strobe bit (rules R208, R211). In soft power-down too (BusReady admits it), where that such a write is no
refusal is the model's reading: log entry 13. That TestBusReg and TestADCReg store no byte: log entry 22. -/
def Obligations.WritesThatChangeNothing : Prop :=
  ∀ (a : RegAddr) (v : Byte) (s : State), BusReady s →
    a ∈ [0x06, 0x07, 0x21, 0x22, 0x2E, 0x2F, 0x35, 0x37, 0x3B] ∨
      a ∈ [0x00, 0x0F, 0x10, 0x1A, 0x1B, 0x1E, 0x20, 0x23, 0x25, 0x30, 0x3C, 0x3D, 0x3E, 0x3F] ∨
      (a = 0x0A ∧ v.getLsbD 7 = false) ∨ (a = 0x0C ∧ v.getLsbD 7 = false ∧ v.getLsbD 6 = false) →
    exec (.wr a v) s = .next s

/-- Rule R201: every bus write is ignored during a reset or wake-up. -/
def Obligations.WritesAreIgnoredWhileBusy : Prop :=
  ∀ (i : Instr) (s : State), isBusWrite i = true → s.nrst = true → s.pdBusy = true → exec i s = .next s

/-- Rules R68, R200, R201, R209, R500: in hard power-down every operation but the two on the reset pin is refused. A
refusal is a marked next state: log entry 1. -/
def Obligations.HardPowerDownRefusesEveryAccess : Prop :=
  ∀ (i : Instr) (s : State), s.nrst = false → i ≠ .assertReset → i ≠ .releaseReset →
    exec i s = .next (refuse .busAccessInHardPowerDown s)

/-- Rules R32, R152, R200, R201: a bus address of 0x40 or more is refused, during a reset or wake-up too. A refusal is
a marked next state: log entry 1. -/
def Obligations.AddressesOutOfRangeAreRefused : Prop :=
  ∀ (k : Bool) (a7 : BitVec 7) (a6 : BitVec 6) (d : Byte) (s : State), s.nrst = true →
    exec (.badAddr k a7 d) s = .next (refuse .addressOutOfRange s) ∧
    exec (.badAddr6 k a6 d) s = .next (refuse .addressOutOfRange s)

/-! ### Flags and the interrupt pin -/

/-- Rules R204, R205: a write of ComIrqReg sets or clears the flags it marks, and no other, and no error flag changes.
A write of DivIrqReg sets or clears MfinActIRq (bit 4) and CRCIRq (bit 2); the other bits are ignored, and the
coprocessor's ready mark is not touched. In soft power-down too (BusReady admits it), where that the write takes
effect is the model's reading: log entry 13. -/
def Obligations.FlagWritesSetOrClear : Prop :=
  ∀ (m : BitVec 7) (s : State), BusReady s →
    exec (.irqSet m) s = .next { s with comIrq := s.comIrq ||| m } ∧
    exec (.irqClear m) s = .next { s with comIrq := s.comIrq &&& ~~~m } ∧
    exec (.divIrqSet m) s = .next { s with
      mfinActIrq := s.mfinActIrq || m.getLsbD 4, crcIrq := s.crcIrq || m.getLsbD 2 } ∧
    exec (.divIrqClear m) s = .next { s with
      mfinActIrq := s.mfinActIrq && !m.getLsbD 4, crcIrq := s.crcIrq && !m.getLsbD 2 }

/-- Rules R43, R67, R209: the pin operation answers the OR of the enabled flags, and changes nothing else; the pin's
level is that answer inverted by ComIEnReg bit 7. The answer is read in the model's own field pinOut: log entry 8. -/
def Obligations.IrqPinAnswersTheEnabledFlags : Prop :=
  ∀ s : State, s.nrst = true →
    ∃ b : Bool, exec .irqPin s = .next { s with pinOut := b } ∧ irqPinLevel s = (b ^^ s.comIEn.getLsbD 7) ∧
      (b = true ↔ (∃ k, k < 7 ∧ s.comIEn.getLsbD k = true ∧ s.comIrq.getLsbD k = true) ∨
        (s.divIEn.getLsbD 4 = true ∧ s.mfinActIrq = true) ∨ (s.divIEn.getLsbD 2 = true ∧ s.crcIrq = true))

/-- Rules R40, R417, R115 (d): a request flag stays set until HOST clears it with a write of its register with bit 7 =
0, or a reset. No other operation and no ENGINE step clears one. -/
def Obligations.RequestFlagsAreSticky : Prop :=
  (∀ (e : EngineStep) (s : State), e ≠ .resetDone →
    (engineStep e s).comIrq &&& s.comIrq = s.comIrq ∧ (s.crcIrq = true → (engineStep e s).crcIrq = true) ∧
      (s.mfinActIrq = true → (engineStep e s).mfinActIrq = true)) ∧
  (∀ (i : Instr) (s t : State), exec i s = .next t → i ≠ .releaseReset →
    ((∀ m, i ≠ .irqClear m) → (∀ d : Byte, d.getLsbD 7 = false → i ≠ .wr 0x04 d) → t.comIrq &&& s.comIrq = s.comIrq) ∧
    ((∀ m, i ≠ .divIrqClear m) → (∀ d : Byte, d.getLsbD 7 = false → i ≠ .wr 0x05 d) →
      (s.crcIrq = true → t.crcIrq = true) ∧ (s.mfinActIrq = true → t.mfinActIrq = true)))

/-- Rules R410, R412: an error flag is cleared by a command start, by receiver start-up (the TX step; not WrErr,
TempErr or BufferOvfl), by a flush (BufferOvfl alone) and by a reset, and by nothing else; TempErr by a reset alone. A
CommandReg write that starts no command keeps every flag: NoCmdChange, a write that enters, keeps or leaves soft
power-down, a refused code, and any code that the chip does not take. -/
def Obligations.OnlyTheNamedEventsClearErrorFlags : Prop :=
  (∀ (e : EngineStep) (s : State), e ≠ .resetDone → (engineStep e s).err &&& (s.err &&& 0xD0) = s.err &&& 0xD0) ∧
  (∀ (e : EngineStep) (s : State), e ≠ .resetDone → e ≠ .tx → (engineStep e s).err &&& s.err = s.err) ∧
  (∀ (i : Instr) (s t : State), exec i s = .next t → i ≠ .releaseReset →
    t.err &&& (s.err &&& 0x40) = s.err &&& 0x40) ∧
  (∀ (i : Instr) (s t : State), exec i s = .next t → i ≠ .releaseReset → ¬(startsCommand i = true ∧ CommandReady s) →
    t.err &&& (s.err &&& 0xEF) = s.err &&& 0xEF) ∧
  (∀ (i : Instr) (s t : State), exec i s = .next t → i ≠ .releaseReset → ¬(startsCommand i = true ∧ CommandReady s) →
    (∀ x, i ≠ .flushBuffer x) → (∀ d : Byte, d.getLsbD 7 = true → i ≠ .wr 0x0A d) → t.err &&& s.err = s.err)

/-! ### The FIFO -/

/-- Rules R23, R110, R112, R206, R255, R406, R413: a push by HOST. On a FIFO that is not full the byte is appended; on
a full one it is dropped with BufferOvfl and ErrIRq. WrErr (with ErrIRq) marks a push while a reply is awaited, and
under CalcCRC the coprocessor is no longer ready. In soft power-down too (BusReady admits it), where that the write
takes effect is the model's reading: log entry 13. -/
def Obligations.FifoPushAppendsOrOverflows : Prop :=
  ∀ (b : Byte) (s : State), BusReady s →
    (s.fifo.length < 64 →
      exec (.fifoPush b) s = .next { s with
        fifo := s.fifo ++ [b]
        err := s.err ||| (if s.cmd = .transceive ∧ s.modem = .waitData then 0x80 else 0)
        comIrq := s.comIrq ||| (if s.cmd = .transceive ∧ s.modem = .waitData then 0x02 else 0) |||
          alertRise s (s.fifo ++ [b]) s.waterLevel
        crcReady := if s.cmd = .calcCrc then false else s.crcReady }) ∧
    (64 ≤ s.fifo.length →
      exec (.fifoPush b) s = .next { s with
        err := s.err ||| 0x10 ||| (if s.cmd = .transceive ∧ s.modem = .waitData then 0x80 else 0)
        comIrq := s.comIrq ||| 0x02
        crcReady := if s.cmd = .calcCrc then false else s.crcReady })

/-- Rules R23, R111, R112, R207: a pop by HOST answers and removes the oldest byte; on an empty FIFO it answers a free
byte and changes nothing else. The answer's field and the free value's form are the model's: log entries 2 and 8. -/
def Obligations.FifoPopTakesTheOldest : Prop :=
  (∀ (b : Byte) (bs : List Byte) (s : State), BusReady s → s.fifo = b :: bs →
    exec .fifoPop s = .next { s with
      busOut := b, draws := s.draws + 1, fifo := bs, comIrq := s.comIrq ||| alertRise s bs s.waterLevel }) ∧
  (∀ s : State, BusReady s → s.fifo = [] →
    exec .fifoPop s = .next { s with busOut := Config.freeBits 8 s.draws, draws := s.draws + 1 })

/-- Rules R23, R112, R147, R208: a flush empties the FIFO and clears BufferOvfl and nothing else; ErrIRq stays. In
soft power-down too (BusReady admits it), where that the write takes effect is the model's reading: log entry 13. -/
def Obligations.FlushEmptiesTheFifo : Prop :=
  ∀ (x : BitVec 7) (s : State), BusReady s →
    exec (.flushBuffer x) s = .next { s with
      fifo := [], err := s.err &&& 0xEF, comIrq := s.comIrq ||| alertRise s [] s.waterLevel }

/-! ### The timer -/

/-- Rules R148, R211, R426, R428, R429: TStartNow loads the reload value and starts the timer, and with TGated not
0b00 it is refused; TStopNow stops the timer, whether or not bit 6 is set too, and the counter keeps a value that is
free. The free counter's form is log entry 2, the refusal's log entry 1. In soft power-down too (BusReady admits it),
where that the write takes effect is the model's reading: log entry 13. -/
def Obligations.TimerStrobesStartAndStopTheTimer : Prop :=
  ∀ (x6 : BitVec 6) (x7 : BitVec 7) (s : State), BusReady s →
    (s.tMode &&& 0x60 = 0 → exec (.tStartNow x6) s = .next { s with tCounter := s.tReload, tRunning := true }) ∧
    (s.tMode &&& 0x60 ≠ 0 → exec (.tStartNow x6) s = .next (refuse .timerGated s)) ∧
    exec (.tStopNow x7) s = .next { s with
      tRunning := false, tCounter := Config.freeBits 16 s.draws, draws := s.draws + 1 }

/-- Rules R427, R431: the timer's expiry, when it is enabled, and its two outcomes. It has no step while the timer is
stopped, in soft or hard power-down, or during a reset or wake-up. That a step which is not enabled changes nothing is
the model's form: log entry 4. -/
def Obligations.TimerExpires : Prop :=
  (∀ s : State, s.tRunning = false ∨ ¬EngineReady s → engineStep .timerExpire s = s) ∧
  (∀ s : State, EngineReady s →
    (s.tRunning = true → s.tMode.getLsbD 4 = true →
      engineStep .timerExpire s = { s with
        comIrq := s.comIrq ||| 0x01, hist := s.hist ++ [.timerExpire], tCounter := s.tReload }) ∧
    (s.tRunning = true → s.tMode.getLsbD 4 = false →
      engineStep .timerExpire s = { s with
        comIrq := s.comIrq ||| 0x01, hist := s.hist ++ [.timerExpire], tCounter := 0, tRunning := false }))

/-- Rules R104, R427: in a run that is fair to TIMER_EXPIRE, as every weakly fair run is, in which HOST issues no
operation any more, a running timer of a chip that is on expires, unless a reception stops it first. That HOST's
operations wait in State is log entry 8; that a run is endless, and that HOST's program adds operations between steps,
is log entry 20. -/
def Obligations.WeaklyFairRunsExpireTheTimer : Prop :=
  ∀ (load : Nat → List HostWord) (σ : Nat → State) (n : Nat), IsRun load σ → FairTo .timerExpire σ →
    EngineReady (σ n) → (σ n).tRunning = true → (σ n).hostOps = [] → (∀ m, n ≤ m → load m = []) →
    ∃ m, n ≤ m ∧ (σ m).tRunning = true ∧
      (((σ (m + 1)).hist = (σ m).hist ++ [.timerExpire] ∧ (σ (m + 1)).comIrq.getLsbD 0 = true) ∨
        ∃ r : Reply, (σ (m + 1)).hist = (σ m).hist ++ [.rx r] ∧ (σ (m + 1)).tRunning = false)

/-! ### Commands -/

/-- Rules R203, R220, R222, R229, R318, R319: Idle stops the active command without its completion effects: a pending
request and reply are lost, the error flags but TempErr are cleared, and no request flag, FIFO byte or timer state
changes. NoCmdChange writes RcvOff and leaves the command as it is; switching the receiver off while a reply is
awaited loses it. That the stop clears the phase, the request and the reply whatever the command: log entry 15. -/
def Obligations.IdleStopsAndNoCmdChangeKeepsTheCommand : Prop :=
  ∀ (r : Bool) (s : State), CommandReady s →
    exec (.idle r) s = .next { s with
      rcvOff := r, cmd := .idle, modem := .idle, txReq := false, pendingResp := none, err := s.err &&& 0x40 } ∧
    exec (.noCmdChange r) s = .next { s with
      rcvOff := r, pendingResp := if r = true ∧ s.modem = .waitData then none else s.pendingResp }

/-- Rules R203, R251, R252, R253: CalcCRC starts from the preset that ModeReg selects; with MSBFirst it is refused. A
refusal is a marked next state: log entry 1. That the stop before it clears the phase, the request and the reply
whatever the command: log entry 15. -/
def Obligations.CalcCrcStartsFromThePreset : Prop :=
  ∀ (r : Bool) (p : Word16) (s : State), CommandReady s →
    (s.mode.getLsbD 7 = false →
      (s.mode &&& 3 = 0 ∧ p = 0x0000) ∨ (s.mode &&& 3 = 1 ∧ p = 0x6363) ∨ (s.mode &&& 3 = 2 ∧ p = 0xA671) ∨
        (s.mode &&& 3 = 3 ∧ p = 0xFFFF) →
      exec (.calcCrc r) s = .next { s with
        rcvOff := r, cmd := .calcCrc, modem := .idle, txReq := false, pendingResp := none, err := s.err &&& 0x40,
        crc := p, crcReady := false }) ∧
    (s.mode.getLsbD 7 = true →
      exec (.calcCrc r) s = .next (refuse .crcWithMsbFirst { s with
        rcvOff := r, cmd := .idle, modem := .idle, txReq := false, pendingResp := none, err := s.err &&& 0x40 }))

/-- Rules R203, R225, R301: Transceive waits to send; the FIFO is not flushed, and a request made before is forgotten.
SoftReset, the host's step, makes the chip busy. The stop before it: log entry 15. -/
def Obligations.TransceiveAndSoftResetStart : Prop :=
  ∀ (r : Bool) (s : State), CommandReady s →
    exec (.transceive r) s = .next { s with
      rcvOff := r, cmd := .transceive, modem := .waitStart, txReq := false, pendingResp := none,
      err := s.err &&& 0x40 } ∧
    exec (.softReset r) s = .next { s with
      rcvOff := r, cmd := .softReset, pdBusy := true, modem := .idle, txReq := false, pendingResp := none,
      err := s.err &&& 0x40 }

/-- Rules R203, R226, R227: the commands outside the block and the reserved codes mark the run refused. A refusal is a
marked next state: log entry 1. -/
def Obligations.OtherCommandCodesAreRefused : Prop :=
  ∀ (r : Bool) (s : State), CommandReady s →
    let s' : State := { s with
      rcvOff := r, pendingResp := if r = true ∧ s.modem = .waitData then none else s.pendingResp }
    exec (.mem r) s = .next (refuse .commandOutsideTheBlock s') ∧
    exec (.genRandId r) s = .next (refuse .commandOutsideTheBlock s') ∧
    exec (.transmit r) s = .next (refuse .commandOutsideTheBlock s') ∧
    exec (.receive r) s = .next (refuse .commandOutsideTheBlock s') ∧
    exec (.mfAuthent r) s = .next (refuse .commandOutsideTheBlock s') ∧
    exec (.reserved5 r) s = .next (refuse .reservedCommand s') ∧
    exec (.reserved6 r) s = .next (refuse .reservedCommand s') ∧
    exec (.reserved9 r) s = .next (refuse .reservedCommand s') ∧
    exec (.reservedA r) s = .next (refuse .reservedCommand s') ∧
    exec (.reservedB r) s = .next (refuse .reservedCommand s') ∧
    exec (.reservedD r) s = .next (refuse .reservedCommand s')

/-- Rules R203, R228, R312: entering soft power-down with Idle stops the command, with NoCmdChange keeps it; a pending
reply is lost either way. With any other code it is refused. A refusal is a marked next state: log entry 1. The stop:
log entry 15. -/
def Obligations.PowerDownEntry : Prop :=
  ∀ (r : Bool) (c : BitVec 4) (s : State), CommandReady s →
    (c = 0 → exec (.powerDown r c) s = .next { s with
      rcvOff := r, cmd := .idle, modem := .idle, txReq := false, pendingResp := none, powerDown := true }) ∧
    (c = 7 → exec (.powerDown r c) s = .next { s with rcvOff := r, pendingResp := none, powerDown := true }) ∧
    (c ≠ 0 → c ≠ 7 → exec (.powerDown r c) s = .next (refuse .commandWithPowerDown { s with
      rcvOff := r, pendingResp := if r = true ∧ s.modem = .waitData then none else s.pendingResp }))

/-- Rules R203, R228, R432: in soft power-down Idle or NoCmdChange with PowerDown = 0 starts the wake-up, with
PowerDown = 1 stays; every other command code is refused. The reply is already lost, so none is pending. A refusal is
a marked next state: log entry 1. -/
def Obligations.CommandsInSoftPowerDown : Prop :=
  ∀ (r : Bool) (c : BitVec 4) (s : State), BusReady s → s.powerDown = true → s.pendingResp = none →
    exec (.idle r) s = .next { s with rcvOff := r, powerDown := false, pdBusy := true } ∧
    exec (.noCmdChange r) s = .next { s with rcvOff := r, powerDown := false, pdBusy := true } ∧
    (c = 0 ∨ c = 7 → exec (.powerDown r c) s = .next { s with rcvOff := r }) ∧
    (c ≠ 0 → c ≠ 7 → exec (.powerDown r c) s = .next (refuse .commandWhilePoweredDown { s with rcvOff := r })) ∧
    (∀ i ∈ [Instr.calcCrc r, .transceive r, .softReset r, .mem r, .genRandId r, .transmit r, .receive r, .mfAuthent r,
        .reserved5 r, .reserved6 r, .reserved9 r, .reservedA r, .reservedB r, .reservedD r],
      exec i s = .next (refuse .commandWhilePoweredDown { s with rcvOff := r }))

/-- Rule R36: only a CommandReg write, the reset pin or the completion of a SoftReset changes the active command. -/
def Obligations.OnlyCommandsAndResetsChangeTheCommand : Prop :=
  (∀ (i : Instr) (s t : State), exec i s = .next t → writesCommandReg i = false → i ≠ .assertReset →
    i ≠ .releaseReset → t.cmd = s.cmd) ∧
  (∀ (e : EngineStep) (s : State), e ≠ .resetDone → (engineStep e s).cmd = s.cmd)

/-! ### The CRC engine -/

/-- Rule R250: one step of CRC_A is the shift loop the rule writes out and the byte-wise form it calls equivalent, for
every register value and byte, and the check value. -/
def Obligations.CrcAIsTheRulesFunction : Prop :=
  (∀ (crc : Word16) (b : Byte),
    crcAStep crc b = Nat.repeat (fun c : Word16 => if c &&& 1 = 1 then (c >>> 1) ^^^ 0x8408 else c >>> 1) 8
      (crc ^^^ b.setWidth 16)) ∧
  (∀ (crc : Word16) (b : Byte), crcAStep crc b = crcAStepBytewise crc b) ∧
  (∀ init : Word16, crcA init [] = init) ∧
  (∀ (init : Word16) (bs : List Byte) (b : Byte), crcA init (bs ++ [b]) = crcAStep (crcA init bs) b) ∧
  crcA 0x6363 [0x31, 0x32, 0x33, 0x34, 0x35, 0x36, 0x37, 0x38, 0x39] = 0xBF05

/-- Rule R266: a frame with its own CRC appended, low byte first, has CRC zero. -/
def Obligations.CrcResidueIsZero : Prop :=
  ∀ d : List Byte, crcA 0x6363 (d ++ [lowByte (crcA 0x6363 d), highByte (crcA 0x6363 d)]) = 0x0000

/-- Rules R254, R256: the ENGINE steps CRC_BYTE and CRC_DONE, when each is enabled, and its effect. That a step which
is not enabled changes nothing is the model's form: log entry 4. -/
def Obligations.CrcEngineSteps : Prop :=
  (∀ (b : Byte) (bs : List Byte) (s : State), EngineReady s → s.cmd = .calcCrc → s.fifo = b :: bs →
    engineStep .crcByte s = { s with
      crc := crcAStep s.crc b, fifo := bs, hist := s.hist ++ [.crcByte b],
      comIrq := s.comIrq ||| alertRise s bs s.waterLevel }) ∧
  (∀ s : State, s.cmd ≠ .calcCrc ∨ s.fifo = [] ∨ ¬EngineReady s → engineStep .crcByte s = s) ∧
  (∀ s : State, EngineReady s → s.cmd = .calcCrc → s.fifo = [] → s.crcReady = false →
    engineStep .crcDone s = { s with crcResult := s.crc, crcReady := true, crcIrq := true }) ∧
  (∀ s : State, s.cmd ≠ .calcCrc ∨ s.fifo ≠ [] ∨ s.crcReady = true ∨ ¬EngineReady s → engineStep .crcDone s = s)

/-- Rules R252, R254, R256, R259: CalcCRC over the whole FIFO. From any state in which the command can start, one
CRC_BYTE step for each byte and CRC_DONE leave the CRC of the FIFO's bytes as the result, an empty FIFO, CRCReady and
CRCIRq set, and every other register as the start left it. -/
def Obligations.CalcCrcComputesTheCrcOfTheFifo : Prop :=
  ∀ (r : Bool) (s : State), CommandReady s → s.mode.getLsbD 7 = false →
    ∃ t : State, exec (.calcCrc r) s = .next t ∧
      ∃ irq : BitVec 7,
        engineSteps (List.replicate s.fifo.length .crcByte ++ [.crcDone]) t = { t with
          crc := crcA (crcPreset s) s.fifo, crcResult := crcA (crcPreset s) s.fifo, crcReady := true, crcIrq := true,
          fifo := [], comIrq := irq, hist := s.hist ++ s.fifo.map .crcByte } ∧
        irq &&& 0x7B = s.comIrq &&& 0x7B

/-- Rules R109, R258: the result registers change only by CRC_DONE and by a reset; a stop keeps them, and keeps the
ready mark. -/
def Obligations.CrcResultIsStable : Prop :=
  (∀ (i : Instr) (s t : State), exec i s = .next t → i ≠ .releaseReset → t.crcResult = s.crcResult) ∧
  (∀ (e : EngineStep) (s : State), e ≠ .crcDone → e ≠ .resetDone → (engineStep e s).crcResult = s.crcResult) ∧
  (∀ s : State, s.cmd ≠ .calcCrc → ∀ e : EngineStep, e ≠ .resetDone → (engineStep e s).crcResult = s.crcResult) ∧
  (∀ (r : Bool) (s t : State), CommandReady s → exec (.idle r) s = .next t → t.crcReady = s.crcReady)

/-! ### The bit-framer -/

/-- Rules R145, R212, R308: a write of BitFramingReg stores its fields; with StartSend it makes a request exactly
while Transceive waits to send. In soft power-down too (BusReady admits it), where that the write takes effect is the
model's reading: log entry 13. -/
def Obligations.StartSendMakesARequest : Prop :=
  (∀ (a l : BitVec 3) (s : State), BusReady s → s.cmd = .transceive → s.modem = .waitStart → s.powerDown = false →
    exec (.startSend a l) s = .next { s with startSend := true, rxAlign := a, txLastBits := l, txReq := true }) ∧
  (∀ (a l : BitVec 3) (s : State), BusReady s → s.cmd ≠ .transceive ∨ s.modem ≠ .waitStart ∨ s.powerDown = true →
    exec (.startSend a l) s = .next { s with startSend := true, rxAlign := a, txLastBits := l }) ∧
  (∀ (v : Byte) (s : State), BusReady s → v.getLsbD 7 = false →
    exec (.wr 0x0D v) s = .next { s with
      startSend := false, rxAlign := v.extractLsb' 4 3, txLastBits := v.extractLsb' 0 3 })

/-- Rules R102, R302, R303, R307: the frame is the FIFO, oldest byte first and each byte's bit 0 first, without the
high bits of the last byte that TxLastBits leaves out. -/
def Obligations.FrameAssemblySendsTheFifoBits : Prop :=
  ∀ (bs : List Byte) (l : BitVec 3), bs ≠ [] →
    let n := 8 * (bs.length - 1) + (if l = 0 then 8 else l.toNat)
    (assemble bs l).length = n ∧
      ∀ k : Nat, k < n → (assemble bs l)[k]? = (bs[k / 8]?).map fun b => b.getLsbD (k % 8)

/-- Rules R300, R310, R311, R312, R412, R426: the TX step with an admitted configuration and a FIFO that is not empty,
for every choice of FIELD (a choice that stands ready, or a free one). FIELD's choice in the queue or free, and the
draws, are the model's forms: log entries 2 and 3. That StartSend keeps its value (R76, R212, R308 (e)) is log entry
12. -/
def Obligations.TransmitStep : Prop :=
  ∀ (s : State) (choice : Option Reply) (field' : List (Option Reply)) (draws' : Nat),
    EngineReady s → s.cmd = .transceive → s.modem = .waitStart → s.txReq = true → s.fifo ≠ [] →
    s.txMode &&& 0xF8 = 0 → s.rxMode &&& 0xFC = 0 → (s.tMode.getLsbD 7 = true → s.tMode &&& 0x60 = 0) →
    (s.field = choice :: field' ∧ draws' = s.draws + 1) ∨
      (s.field = [] ∧ field' = [] ∧ choice = Config.freeReply (s.draws + 1) ∧ draws' = s.draws + 2) →
    engineStep .tx s = { s with
      fifo := [], txReq := false, hist := s.hist ++ [.tx (assemble s.fifo s.txLastBits)]
      comIrq := s.comIrq ||| 0x40 ||| alertRise s [] s.waterLevel, err := s.err &&& 0xF0
      collPosNotValid := true, collPos := Config.freeBits 5 s.draws, draws := draws', field := field'
      pendingResp := if s.txControl &&& 0x03 = 0x03 ∧ s.rcvOff = false then choice else none
      modem := .waitData
      tCounter := if s.tMode.getLsbD 7 = true then s.tReload else s.tCounter
      tRunning := if s.tMode.getLsbD 7 = true then true else s.tRunning }

/-- Rules R309, R310, R314, R316, R318, R403: the two refusals of the TX step, in their order, and the states in which
TX has no step; and RX has none without a pending reply, with the receiver off, or out of WAIT_DATA. A refusal is a
marked next state (log entry 1), and a step that is not enabled changes nothing (log entry 4). -/
def Obligations.TransmitRefusalsAndSilence : Prop :=
  (∀ s : State, EngineReady s → s.cmd = .transceive → s.modem = .waitStart → s.txReq = true →
    (s.txMode &&& 0xF8 ≠ 0 ∨ s.rxMode &&& 0xFC ≠ 0 ∨ (s.tMode.getLsbD 7 = true ∧ s.tMode &&& 0x60 ≠ 0) →
      engineStep .tx s = refuse .radioConfigurationOutsideTheModel s) ∧
    (s.txMode &&& 0xF8 = 0 → s.rxMode &&& 0xFC = 0 → (s.tMode.getLsbD 7 = true → s.tMode &&& 0x60 = 0) → s.fifo = [] →
      engineStep .tx s = refuse .transmitWithEmptyFifo s)) ∧
  (∀ s : State, s.cmd ≠ .transceive ∨ s.modem ≠ .waitStart ∨ s.txReq = false ∨ ¬EngineReady s → engineStep .tx s = s) ∧
  (∀ s : State, s.cmd ≠ .transceive ∨ s.modem ≠ .waitData ∨ s.pendingResp = none ∨ s.rcvOff = true ∨ ¬EngineReady s →
    engineStep .rx s = s)

/-- Rules R314, R315, R321, R408, R410, R430: the RX step. The free values are those the rule draws: the counter a
stopped timer keeps, and a collision position out of range. COLLPOS_ORIGIN stands at its default GRID: log entry 6.
That RxModeReg is not checked again here: log entry 21. That the step never sets LoAlertIRq: log entry 23. -/
def Obligations.ReceiveStep : Prop :=
  ∀ (s : State) (r : Reply), EngineReady s → s.cmd = .transceive → s.modem = .waitData → s.pendingResp = some r →
    s.rcvOff = false →
    let n := r.syms.length
    let bytes := receivedBytes s r
    let fifo' := s.fifo ++ bytes.take (64 - s.fifo.length)
    let full := decide (64 < s.fifo.length + bytes.length)
    let hit := r.syms.contains .x
    let p := s.rxAlign.toNat + r.syms.idxOf .x + 1
    let stops := decide (4 ≤ n) && s.tRunning && s.tMode.getLsbD 7
    ∃ (free16 : Word16) (free5 : BitVec 5) (draws' : Nat),
      engineStep .rx s = { s with
        pendingResp := none, modem := .waitStart, hist := s.hist ++ [.rx r], fifo := fifo'
        rxLastBits := BitVec.ofNat 3 ((s.rxAlign.toNat + n) % 8)
        err := s.err ||| (if full then 0x10 else 0) ||| (if hit then 0x08 else 0) |||
          (if r.parityErr then 0x02 else 0) ||| (if r.protocolErr then 0x01 else 0)
        comIrq := s.comIrq ||| 0x20 ||| (if full || hit || r.parityErr || r.protocolErr then 0x02 else 0) |||
          alertRise s fifo' s.waterLevel
        collPosNotValid := !(hit && decide (p ≤ 32))
        collPos := if hit = false then s.collPos else if p ≤ 32 then BitVec.ofNat 5 (p % 32) else free5
        tRunning := s.tRunning && !stops
        tCounter := if stops then free16 else s.tCounter
        draws := draws' }

/-- Rules R102, R304, R314, R315 (c): where the received bits stand. The reply fills whole bytes from bit RxAlign of
the first one on; a bit before the first collision, or after it with ValuesAfterColl = 1, is the received symbol; with
ValuesAfterColl = 0 every bit from the first collision on is 0. -/
def Obligations.ReceivedBitsStandInOrder : Prop :=
  ∀ (s : State) (r : Reply),
    (receivedBytes s r).length = (s.rxAlign.toNat + r.syms.length + 7) / 8 ∧
    ∀ (k : Nat) (y : Sys2Proof.Sym), r.syms[k]? = some y →
      ∃ b : Byte, (receivedBytes s r)[(s.rxAlign.toNat + k) / 8]? = some b ∧
        (s.valuesAfterColl = false → .x ∈ r.syms.take (k + 1) → b.getLsbD ((s.rxAlign.toNat + k) % 8) = false) ∧
        (s.valuesAfterColl = true ∨ .x ∉ r.syms.take (k + 1) → y ≠ .x →
          b.getLsbD ((s.rxAlign.toNat + k) % 8) = (y == .one))

/-- Rules R156, R315: the collision position HOST uses. From the bytes it reads at CollReg and ErrorReg after the RX
step, it is the position of the first collision, RxAlign counted in, where that is at most 32, and there is none
otherwise; so too after a reply without a collision. COLLPOS_ORIGIN stands at its default GRID: log entry 6. -/
def Obligations.HostReadsTheCollisionPosition : Prop :=
  (hostCollisionPosition 0x01 0x08 = some 1 ∧ hostCollisionPosition 0x00 0x08 = some 32 ∧
    hostCollisionPosition 0x20 0x08 = none ∧ hostCollisionPosition 0xA0 0x08 = none ∧
    ∀ c : Byte, hostCollisionPosition c 0x00 = none) ∧
  (∀ (s : State) (r : Reply), EngineReady s → s.cmd = .transceive → s.modem = .waitData → s.pendingResp = some r →
    s.rcvOff = false → (.x ∉ r.syms → s.err.getLsbD 3 = false) →
    let t := engineStep .rx s
    let p := s.rxAlign.toNat + r.syms.idxOf .x + 1
    ∃ coll err : Byte,
      exec (.rd 0x0E) t = .next { t with busOut := coll, draws := t.draws + 1 } ∧
      exec (.rd 0x06) t = .next { t with busOut := err, draws := t.draws + 1 } ∧
      hostCollisionPosition coll err = if .x ∈ r.syms ∧ p ≤ 32 then some p else none)

/-! ### Power, the reset pin and the environment -/

/-- Rule R500: asserting the reset pin. The active command and any pending reply are lost, the antenna is off, no step
is enabled, and nothing else changes. What the fields hold meanwhile is log entry 14, and that a step without effect
changes nothing log entry 4. -/
def Obligations.AssertResetEntersHardPowerDown : Prop :=
  ∀ s : State, ∃ t : State, exec .assertReset s = .next t ∧
    t = { s with nrst := false, cmd := .idle, modem := .idle, txReq := false, pendingResp := none } ∧
    fieldOn t = false ∧ ∀ e : EngineStep, engineStep e t = t

/-- Rules R73, R74, R501, R503: releasing the reset pin is a hard reset; with the pin already released it changes
nothing. The two free values of a reset are those of CollPos and the timer counter. That the agents' queues and what
HOST was answered survive is the model's: log entry 8. -/
def Obligations.ReleaseResetIsAHardReset : Prop :=
  (∀ s : State, s.nrst = true → exec .releaseReset s = .next s) ∧
  (∀ s : State, s.nrst = false →
    ∃ (free5 : BitVec 5) (free16 : Word16) (draws' : Nat),
      exec .releaseReset s = .next { State.reset with
        collPos := free5, tCounter := free16, draws := draws', refused := s.refused, hist := s.hist ++ [.reset .hard],
        busOut := s.busOut, pinOut := s.pinOut, hostOps := s.hostOps, sched := s.sched, field := s.field,
        cancels := s.cancels, allowOverheat := s.allowOverheat })

/-- Rules R73, R74, R225, R228, R501: RESET_DONE ends a SoftReset with every register at its reset value (ComIrqReg
reads 0x14, for IdleIRq is set in its reset value too); WAKE_DONE ends a wake-up, and every register keeps its value.
That the agents' queues and what HOST was answered survive is the model's: log entry 8. The power-down condition: log
entry 9. That a step which is not enabled changes nothing is the model's form: log entry 4. -/
def Obligations.ResetAndWakeUpComplete : Prop :=
  (∀ s : State, s.nrst = true → s.powerDown = false → s.cmd = .softReset → s.pdBusy = true →
    ∃ (free5 : BitVec 5) (free16 : Word16) (draws' : Nat),
      engineStep .resetDone s = { State.reset with
        pdBusy := false, collPos := free5, tCounter := free16, draws := draws', refused := s.refused,
        hist := s.hist ++ [.reset .soft], busOut := s.busOut, pinOut := s.pinOut, hostOps := s.hostOps,
        sched := s.sched, field := s.field, cancels := s.cancels, allowOverheat := s.allowOverheat }) ∧
  (∀ s : State, s.cmd ≠ .softReset ∨ s.pdBusy = false ∨ s.nrst = false → engineStep .resetDone s = s) ∧
  (∀ s : State, s.nrst = true → s.powerDown = false → s.pdBusy = true → s.cmd ≠ .softReset →
    engineStep .wakeDone s = { s with pdBusy := false }) ∧
  (∀ s : State, s.nrst = false ∨ s.pdBusy = false ∨ s.cmd = .softReset → engineStep .wakeDone s = s)

/-- Rules R15, R409 (with the power states of R404: log entry 9; in the quiescent states of R404 too: log entry 19):
where ALLOW_OVERHEAT is true, OVERHEAT sets TempErr and ErrIRq, switches the antenna off and loses a pending reply;
with TempErr set, or ALLOW_OVERHEAT false, it does not happen. No operation and no step changes ALLOW_OVERHEAT, so a
claim may take either value for a run. That the parameter stands in State is log entry 6, and that a step which is not
enabled changes nothing log entry 4. -/
def Obligations.OverheatSwitchesTheAntennaOff : Prop :=
  (∀ s : State, s.nrst = true → s.powerDown = false → s.allowOverheat = true → s.err.getLsbD 6 = false →
    engineStep .overheat s = { s with
      err := s.err ||| 0x40, comIrq := s.comIrq ||| 0x02, txControl := s.txControl &&& 0xFC, pendingResp := none,
      hist := s.hist ++ [.overheat] }) ∧
  (∀ s : State, s.nrst = false ∨ s.allowOverheat = false ∨ s.err.getLsbD 6 = true → engineStep .overheat s = s) ∧
  (∀ (i : Instr) (s t : State), exec i s = .next t → t.allowOverheat = s.allowOverheat) ∧
  (∀ (e : EngineStep) (s : State), (engineStep e s).allowOverheat = s.allowOverheat)

/-- Rules R228, R404, R431, R432: in soft power-down and in hard power-down no ENGINE step changes anything, so every
register value survives soft power-down, and the timer does not run. OVERHEAT in soft power-down: log entry 9. That a
step which is not enabled changes nothing is the model's form: log entry 4. -/
def Obligations.NoEngineStepInPowerDown : Prop :=
  ∀ (e : EngineStep) (s : State), s.nrst = false ∨ s.powerDown = true → engineStep e s = s

/-- Rules R69, R71, R74: no step, not even a reset, clears the refusal mark, and the history only grows. That a marked
run keeps its first reason, and that a meaning answers at a marked state at all, is the model's form: log entry 1. -/
def Obligations.RefusalMarkAndHistorySurvive : Prop :=
  (∀ (i : Instr) (s t : State), exec i s = .next t →
    (∀ r, s.refused = some r → t.refused = some r) ∧ ∃ es : List Event, t.hist = s.hist ++ es) ∧
  (∀ (e : EngineStep) (s : State),
    (∀ r, s.refused = some r → (engineStep e s).refused = some r) ∧ ∃ es : List Event,
      (engineStep e s).hist = s.hist ++ es)

/-! ### The driver's operations -/

/-- Rules R250, R260, R262, R264, R265, R531: the CRC operations of the driver under PROMPT_CRC, for every
interleaving it admits (PromptCrc). With the preset of `reset()`, `computeCrc` returns OK and the CRC_A of its input,
and leaves the chip idle with an empty FIFO; `appendCrc` appends it low byte first; `verifyCrc` returns OK exactly for
a frame that ends with its own CRC_A. The driver program and the schedule are the model's forms: log entries 4 and 18.
-/
def Obligations.ComputeCrcReturnsCrcA : Prop :=
  ∀ (data : List Byte) (rest : List Move) (s : State), CommandReady s → s.refused = none → data.length ≤ 64 →
    s.mode &&& 0x83 = 0x01 → PromptCrc data.length s.sched rest →
    let c := crcA 0x6363 data
    (runProg (computeCrc data) s).value = some (.ok c) ∧
    (runProg (computeCrc data) s).state.cmd = .idle ∧ (runProg (computeCrc data) s).state.fifo = [] ∧
    (runProg (computeCrc data) s).state.refused = none ∧
    (runProg (appendCrc data) s).value = some (.ok (data ++ [lowByte c, highByte c])) ∧
    ∀ lo hi : Byte, (runProg (verifyCrc (data ++ [lo, hi])) s).value =
      some (if lo = lowByte c ∧ hi = highByte c then .ok else .crcWrong)

/-- Rules R330 to R340, R302, R314, R531: `transceive` under PROMPT_TX, PROMPT_REPLY, QUIET_TIMER, NO_CANCEL and
NO_OVERHEAT, for every interleaving they admit (PromptReply, NoOverheat). With an admitted radio configuration, the
antenna on and a reply of FIELD that carries no error mark and fits the FIFO, the call transmits the frame once and
returns the reply's bytes and the valid bits of the last one, with COLLISION where the reply holds a collided symbol,
INVALID where a CRC check is asked of a reply that is too short or does not end on a whole byte, and OK otherwise;
every bit before the first collision is the received symbol, from bit RxAlign on. The one case left out is a CRC check
that computes a CRC, which is `verifyCrc`. The driver program, the schedule, FIELD and CANCEL are the model's forms:
log entries 3, 4, 5 and 18. -/
def Obligations.TransceiveReturnsTheReply : Prop :=
  ∀ (data : List Byte) (vb polls : Nat) (o : TransceiveOptions) (r : Reply) (fs : List (Option Reply)) (cs : List Bool)
    (rest : List Move) (s : State),
    CommandReady s → s.refused = none → data ≠ [] → data.length ≤ 64 → vb ≤ 7 → o.rxAlign ≤ 7 →
    s.txControl &&& 0x03 = 0x03 → s.txMode &&& 0xF8 = 0 → s.rxMode &&& 0xFC = 0 →
    (s.tMode.getLsbD 7 = true → s.tMode &&& 0x60 = 0) → s.tRunning = false → r.parityErr = false →
    r.protocolErr = false →
    let n := (o.rxAlign + r.syms.length + 7) / 8
    let left := (o.rxAlign + r.syms.length) % 8
    let invalid := o.checkCrc = true ∧ (n < 2 ∨ left ≠ 0)
    n ≤ 64 → o.checkCrc = false ∨ Sys2Proof.Sym.x ∈ r.syms ∨ invalid →
    s.field = some r :: fs → s.cancels = List.replicate (polls + 1) false ++ cs →
    PromptReply data.length n (Config.waitBudget o.expectLen) polls s.sched rest → NoOverheat s rest →
    ∃ recv : List Byte,
      (runProg (transceive data vb o) s).value =
        some ⟨if Sys2Proof.Sym.x ∈ r.syms then .collision else if invalid then .invalid else .ok, recv, left⟩ ∧
      recv.length = n ∧
      (∀ (k : Nat) (y : Sys2Proof.Sym), r.syms[k]? = some y → Sys2Proof.Sym.x ∉ r.syms.take (k + 1) →
        ∃ b : Byte, recv[(o.rxAlign + k) / 8]? = some b ∧ b.getLsbD ((o.rxAlign + k) % 8) = (y == .one)) ∧
      ∃ es : List Event, (∀ e ∈ es, e = .timerExpire) ∧
        (runProg (transceive data vb o) s).state.hist =
          s.hist ++ [.tx (assemble data (BitVec.ofNat 3 vb)), .rx r] ++ es

/-- Rules R312, R316, R330, R333, R335, R531: `transceive` under PROMPT_TX, QUIET_TIMER, NO_CANCEL and NO_OVERHEAT,
for every interleaving they admit (PromptTx, NoOverheat), where FIELD is silent or the antenna is off. The call
transmits the frame once and returns TIMEOUT with no bytes, whether TimerIRq or the budget ends the wait; nothing else
happens but the timer's expiries. The driver program, the schedule, FIELD and CANCEL are the model's forms: log
entries 3, 4, 5 and 18. -/
def Obligations.SilenceEndsInTimeout : Prop :=
  ∀ (data : List Byte) (vb polls : Nat) (o : TransceiveOptions) (wait rest : List Move) (cs : List Bool) (s : State),
    CommandReady s → s.refused = none → data ≠ [] → data.length ≤ 64 → vb ≤ 7 → o.rxAlign ≤ 7 →
    s.txMode &&& 0xF8 = 0 → s.rxMode &&& 0xFC = 0 → (s.tMode.getLsbD 7 = true → s.tMode &&& 0x60 = 0) →
    s.tRunning = false → s.field.head? = some none ∨ s.txControl &&& 0x03 ≠ 0x03 →
    s.cancels = List.replicate (Config.waitBudget o.expectLen) false ++ cs →
    PromptTx data.length (Config.waitBudget o.expectLen) polls s.sched (wait ++ rest) →
    polls + wait.count .host = Config.waitBudget o.expectLen → NoOverheat s rest →
    (runProg (transceive data vb o) s).value = some ⟨.timeout, [], 0⟩ ∧
    (runProg (transceive data vb o) s).state.cmd = .transceive ∧
    ∃ es : List Event, (∀ e ∈ es, e = .timerExpire) ∧
      (runProg (transceive data vb o) s).state.hist = s.hist ++ .tx (assemble data (BitVec.ofNat 3 vb)) :: es

/-- Rules R330 (the argument checks), R260 and R265 (theirs), R333 and R334: bad arguments give their status with no
chip access at all, and a cancellation seen at a check of the wait ends it at once with no further one: no operation
is issued. The driver program is the model's form: log entry 18; CANCEL: log entry 5. -/
def Obligations.BadArgumentsAndCancellationMakeNoChipAccess : Prop :=
  (∀ (data : List Byte) (vb : Nat) (o : TransceiveOptions) (s : State), s.refused = none →
    (7 < vb ∨ 7 < o.rxAlign ∨ data = [] →
      runProg (transceive data vb o) s = ⟨some ⟨.internalError, [], 0⟩, s, []⟩) ∧
    (vb ≤ 7 → o.rxAlign ≤ 7 → 64 < data.length →
      runProg (transceive data vb o) s = ⟨some ⟨.noRoom, [], 0⟩, s, []⟩) ∧
    (64 < data.length → runProg (computeCrc data) s = ⟨some (.error .noRoom), s, []⟩) ∧
    (data.length < 2 → runProg (verifyCrc data) s = ⟨some .invalid, s, []⟩)) ∧
  (∀ (n : Nat) (cs : List Bool) (s : State), s.refused = none → s.cancels = true :: cs →
    runProg (awaitReception (n + 1)) s = ⟨some (.error .canceled), { s with cancels := cs }, []⟩)

/-- Rules R309, R505, R506, R531: `reset()` under PROMPT_RESET and NO_OVERHEAT, for every interleaving they admit
(PromptReset). From any state with the reset pin released, whether the chip is on, in soft power-down, or in a reset
or wake-up already, it returns OK and leaves the configuration the rule writes, the antenna on, the flags as the
SoftReset left them and an admitted radio configuration. The driver program and the schedule are the model's forms:
log entries 4 and 18. -/
def Obligations.ResetEstablishesTheConfiguration : Prop :=
  ∀ (s : State) (rest : List Move), s.nrst = true → s.refused = none →
    (s.powerDown = true → s.pdBusy = false ∧ s.cmd ≠ .softReset) → PromptReset s rest →
    let t := (runProg driverReset s).state
    (runProg driverReset s).value = some .ok ∧
    t.tMode = 0x80 ∧ t.tPrescaler = 0x0A9 ∧ t.tReload = 0x03E8 ∧ t.txASK = 0x40 ∧ t.mode &&& 0xAB = 0x29 ∧
    t.txMode &&& 0xF8 = 0 ∧ t.rxMode &&& 0xFC = 0 ∧ t.startSend = false ∧ t.rxAlign = 0 ∧ t.txLastBits = 0 ∧
    t.txControl = 0x83 ∧ t.cmd = .idle ∧ t.fifo = [] ∧ t.comIrq = 0x14 ∧ t.crcIrq = false ∧ t.err = 0 ∧
    t.valuesAfterColl = true ∧ t.comIEn = 0x80 ∧ t.divIEn = 0 ∧ t.tRunning = false ∧ t.refused = none
end

