-- ==== Sys2Proof/Laws/State.lean ====
section
/-! SUPPORT. One lemma per field per named update of State, true by rfl, so that no later proof unfolds a record
update. -/

namespace Sys2Proof.Machine

open Sys2Proof

/-! ### bumpDraws -/

@[simp] theorem bumpDraws_cmd (k : Nat) (s : State) : (bumpDraws k s).cmd = s.cmd := rfl
@[simp] theorem bumpDraws_rcvOff (k : Nat) (s : State) : (bumpDraws k s).rcvOff = s.rcvOff := rfl
@[simp] theorem bumpDraws_powerDown (k : Nat) (s : State) : (bumpDraws k s).powerDown = s.powerDown := rfl
@[simp] theorem bumpDraws_pdBusy (k : Nat) (s : State) : (bumpDraws k s).pdBusy = s.pdBusy := rfl
@[simp] theorem bumpDraws_comIEn (k : Nat) (s : State) : (bumpDraws k s).comIEn = s.comIEn := rfl
@[simp] theorem bumpDraws_divIEn (k : Nat) (s : State) : (bumpDraws k s).divIEn = s.divIEn := rfl
@[simp] theorem bumpDraws_comIrq (k : Nat) (s : State) : (bumpDraws k s).comIrq = s.comIrq := rfl
@[simp] theorem bumpDraws_mfinActIrq (k : Nat) (s : State) : (bumpDraws k s).mfinActIrq = s.mfinActIrq := rfl
@[simp] theorem bumpDraws_crcIrq (k : Nat) (s : State) : (bumpDraws k s).crcIrq = s.crcIrq := rfl
@[simp] theorem bumpDraws_err (k : Nat) (s : State) : (bumpDraws k s).err = s.err := rfl
@[simp] theorem bumpDraws_fifo (k : Nat) (s : State) : (bumpDraws k s).fifo = s.fifo := rfl
@[simp] theorem bumpDraws_waterLevel (k : Nat) (s : State) : (bumpDraws k s).waterLevel = s.waterLevel := rfl
@[simp] theorem bumpDraws_startSend (k : Nat) (s : State) : (bumpDraws k s).startSend = s.startSend := rfl
@[simp] theorem bumpDraws_rxAlign (k : Nat) (s : State) : (bumpDraws k s).rxAlign = s.rxAlign := rfl
@[simp] theorem bumpDraws_txLastBits (k : Nat) (s : State) : (bumpDraws k s).txLastBits = s.txLastBits := rfl
@[simp] theorem bumpDraws_rxLastBits (k : Nat) (s : State) : (bumpDraws k s).rxLastBits = s.rxLastBits := rfl
@[simp] theorem bumpDraws_valuesAfterColl (k : Nat) (s : State) : (bumpDraws k s).valuesAfterColl = s.valuesAfterColl := rfl
@[simp] theorem bumpDraws_collPosNotValid (k : Nat) (s : State) : (bumpDraws k s).collPosNotValid = s.collPosNotValid := rfl
@[simp] theorem bumpDraws_collPos (k : Nat) (s : State) : (bumpDraws k s).collPos = s.collPos := rfl
@[simp] theorem bumpDraws_mode (k : Nat) (s : State) : (bumpDraws k s).mode = s.mode := rfl
@[simp] theorem bumpDraws_txMode (k : Nat) (s : State) : (bumpDraws k s).txMode = s.txMode := rfl
@[simp] theorem bumpDraws_rxMode (k : Nat) (s : State) : (bumpDraws k s).rxMode = s.rxMode := rfl
@[simp] theorem bumpDraws_txControl (k : Nat) (s : State) : (bumpDraws k s).txControl = s.txControl := rfl
@[simp] theorem bumpDraws_txASK (k : Nat) (s : State) : (bumpDraws k s).txASK = s.txASK := rfl
@[simp] theorem bumpDraws_tempSensClear (k : Nat) (s : State) : (bumpDraws k s).tempSensClear = s.tempSensClear := rfl
@[simp] theorem bumpDraws_i2cForceHS (k : Nat) (s : State) : (bumpDraws k s).i2cForceHS = s.i2cForceHS := rfl
@[simp] theorem bumpDraws_crc (k : Nat) (s : State) : (bumpDraws k s).crc = s.crc := rfl
@[simp] theorem bumpDraws_crcResult (k : Nat) (s : State) : (bumpDraws k s).crcResult = s.crcResult := rfl
@[simp] theorem bumpDraws_crcReady (k : Nat) (s : State) : (bumpDraws k s).crcReady = s.crcReady := rfl
@[simp] theorem bumpDraws_tMode (k : Nat) (s : State) : (bumpDraws k s).tMode = s.tMode := rfl
@[simp] theorem bumpDraws_tPrescaler (k : Nat) (s : State) : (bumpDraws k s).tPrescaler = s.tPrescaler := rfl
@[simp] theorem bumpDraws_tReload (k : Nat) (s : State) : (bumpDraws k s).tReload = s.tReload := rfl
@[simp] theorem bumpDraws_tCounter (k : Nat) (s : State) : (bumpDraws k s).tCounter = s.tCounter := rfl
@[simp] theorem bumpDraws_tRunning (k : Nat) (s : State) : (bumpDraws k s).tRunning = s.tRunning := rfl
@[simp] theorem bumpDraws_modem (k : Nat) (s : State) : (bumpDraws k s).modem = s.modem := rfl
@[simp] theorem bumpDraws_txReq (k : Nat) (s : State) : (bumpDraws k s).txReq = s.txReq := rfl
@[simp] theorem bumpDraws_pendingResp (k : Nat) (s : State) : (bumpDraws k s).pendingResp = s.pendingResp := rfl
@[simp] theorem bumpDraws_other (k : Nat) (s : State) : (bumpDraws k s).other = s.other := rfl
@[simp] theorem bumpDraws_nrst (k : Nat) (s : State) : (bumpDraws k s).nrst = s.nrst := rfl
@[simp] theorem bumpDraws_refused (k : Nat) (s : State) : (bumpDraws k s).refused = s.refused := rfl
@[simp] theorem bumpDraws_hist (k : Nat) (s : State) : (bumpDraws k s).hist = s.hist := rfl
@[simp] theorem bumpDraws_busOut (k : Nat) (s : State) : (bumpDraws k s).busOut = s.busOut := rfl
@[simp] theorem bumpDraws_pinOut (k : Nat) (s : State) : (bumpDraws k s).pinOut = s.pinOut := rfl
@[simp] theorem bumpDraws_draws (k : Nat) (s : State) : (bumpDraws k s).draws = s.draws + k := rfl
@[simp] theorem bumpDraws_hostOps (k : Nat) (s : State) : (bumpDraws k s).hostOps = s.hostOps := rfl
@[simp] theorem bumpDraws_sched (k : Nat) (s : State) : (bumpDraws k s).sched = s.sched := rfl
@[simp] theorem bumpDraws_field (k : Nat) (s : State) : (bumpDraws k s).field = s.field := rfl
@[simp] theorem bumpDraws_cancels (k : Nat) (s : State) : (bumpDraws k s).cancels = s.cancels := rfl
@[simp] theorem bumpDraws_allowOverheat (k : Nat) (s : State) : (bumpDraws k s).allowOverheat = s.allowOverheat := rfl

/-! ### logEvent -/

@[simp] theorem logEvent_cmd (e : Event) (s : State) : (logEvent e s).cmd = s.cmd := rfl
@[simp] theorem logEvent_rcvOff (e : Event) (s : State) : (logEvent e s).rcvOff = s.rcvOff := rfl
@[simp] theorem logEvent_powerDown (e : Event) (s : State) : (logEvent e s).powerDown = s.powerDown := rfl
@[simp] theorem logEvent_pdBusy (e : Event) (s : State) : (logEvent e s).pdBusy = s.pdBusy := rfl
@[simp] theorem logEvent_comIEn (e : Event) (s : State) : (logEvent e s).comIEn = s.comIEn := rfl
@[simp] theorem logEvent_divIEn (e : Event) (s : State) : (logEvent e s).divIEn = s.divIEn := rfl
@[simp] theorem logEvent_comIrq (e : Event) (s : State) : (logEvent e s).comIrq = s.comIrq := rfl
@[simp] theorem logEvent_mfinActIrq (e : Event) (s : State) : (logEvent e s).mfinActIrq = s.mfinActIrq := rfl
@[simp] theorem logEvent_crcIrq (e : Event) (s : State) : (logEvent e s).crcIrq = s.crcIrq := rfl
@[simp] theorem logEvent_err (e : Event) (s : State) : (logEvent e s).err = s.err := rfl
@[simp] theorem logEvent_fifo (e : Event) (s : State) : (logEvent e s).fifo = s.fifo := rfl
@[simp] theorem logEvent_waterLevel (e : Event) (s : State) : (logEvent e s).waterLevel = s.waterLevel := rfl
@[simp] theorem logEvent_startSend (e : Event) (s : State) : (logEvent e s).startSend = s.startSend := rfl
@[simp] theorem logEvent_rxAlign (e : Event) (s : State) : (logEvent e s).rxAlign = s.rxAlign := rfl
@[simp] theorem logEvent_txLastBits (e : Event) (s : State) : (logEvent e s).txLastBits = s.txLastBits := rfl
@[simp] theorem logEvent_rxLastBits (e : Event) (s : State) : (logEvent e s).rxLastBits = s.rxLastBits := rfl
@[simp] theorem logEvent_valuesAfterColl (e : Event) (s : State) : (logEvent e s).valuesAfterColl = s.valuesAfterColl := rfl
@[simp] theorem logEvent_collPosNotValid (e : Event) (s : State) : (logEvent e s).collPosNotValid = s.collPosNotValid := rfl
@[simp] theorem logEvent_collPos (e : Event) (s : State) : (logEvent e s).collPos = s.collPos := rfl
@[simp] theorem logEvent_mode (e : Event) (s : State) : (logEvent e s).mode = s.mode := rfl
@[simp] theorem logEvent_txMode (e : Event) (s : State) : (logEvent e s).txMode = s.txMode := rfl
@[simp] theorem logEvent_rxMode (e : Event) (s : State) : (logEvent e s).rxMode = s.rxMode := rfl
@[simp] theorem logEvent_txControl (e : Event) (s : State) : (logEvent e s).txControl = s.txControl := rfl
@[simp] theorem logEvent_txASK (e : Event) (s : State) : (logEvent e s).txASK = s.txASK := rfl
@[simp] theorem logEvent_tempSensClear (e : Event) (s : State) : (logEvent e s).tempSensClear = s.tempSensClear := rfl
@[simp] theorem logEvent_i2cForceHS (e : Event) (s : State) : (logEvent e s).i2cForceHS = s.i2cForceHS := rfl
@[simp] theorem logEvent_crc (e : Event) (s : State) : (logEvent e s).crc = s.crc := rfl
@[simp] theorem logEvent_crcResult (e : Event) (s : State) : (logEvent e s).crcResult = s.crcResult := rfl
@[simp] theorem logEvent_crcReady (e : Event) (s : State) : (logEvent e s).crcReady = s.crcReady := rfl
@[simp] theorem logEvent_tMode (e : Event) (s : State) : (logEvent e s).tMode = s.tMode := rfl
@[simp] theorem logEvent_tPrescaler (e : Event) (s : State) : (logEvent e s).tPrescaler = s.tPrescaler := rfl
@[simp] theorem logEvent_tReload (e : Event) (s : State) : (logEvent e s).tReload = s.tReload := rfl
@[simp] theorem logEvent_tCounter (e : Event) (s : State) : (logEvent e s).tCounter = s.tCounter := rfl
@[simp] theorem logEvent_tRunning (e : Event) (s : State) : (logEvent e s).tRunning = s.tRunning := rfl
@[simp] theorem logEvent_modem (e : Event) (s : State) : (logEvent e s).modem = s.modem := rfl
@[simp] theorem logEvent_txReq (e : Event) (s : State) : (logEvent e s).txReq = s.txReq := rfl
@[simp] theorem logEvent_pendingResp (e : Event) (s : State) : (logEvent e s).pendingResp = s.pendingResp := rfl
@[simp] theorem logEvent_other (e : Event) (s : State) : (logEvent e s).other = s.other := rfl
@[simp] theorem logEvent_nrst (e : Event) (s : State) : (logEvent e s).nrst = s.nrst := rfl
@[simp] theorem logEvent_refused (e : Event) (s : State) : (logEvent e s).refused = s.refused := rfl
@[simp] theorem logEvent_hist (e : Event) (s : State) : (logEvent e s).hist = s.hist ++ [e] := rfl
@[simp] theorem logEvent_busOut (e : Event) (s : State) : (logEvent e s).busOut = s.busOut := rfl
@[simp] theorem logEvent_pinOut (e : Event) (s : State) : (logEvent e s).pinOut = s.pinOut := rfl
@[simp] theorem logEvent_draws (e : Event) (s : State) : (logEvent e s).draws = s.draws := rfl
@[simp] theorem logEvent_hostOps (e : Event) (s : State) : (logEvent e s).hostOps = s.hostOps := rfl
@[simp] theorem logEvent_sched (e : Event) (s : State) : (logEvent e s).sched = s.sched := rfl
@[simp] theorem logEvent_field (e : Event) (s : State) : (logEvent e s).field = s.field := rfl
@[simp] theorem logEvent_cancels (e : Event) (s : State) : (logEvent e s).cancels = s.cancels := rfl
@[simp] theorem logEvent_allowOverheat (e : Event) (s : State) : (logEvent e s).allowOverheat = s.allowOverheat := rfl

/-! ### refuse -/

@[simp] theorem refuse_cmd (r : RefuseReason) (s : State) : (refuse r s).cmd = s.cmd := rfl
@[simp] theorem refuse_rcvOff (r : RefuseReason) (s : State) : (refuse r s).rcvOff = s.rcvOff := rfl
@[simp] theorem refuse_powerDown (r : RefuseReason) (s : State) : (refuse r s).powerDown = s.powerDown := rfl
@[simp] theorem refuse_pdBusy (r : RefuseReason) (s : State) : (refuse r s).pdBusy = s.pdBusy := rfl
@[simp] theorem refuse_comIEn (r : RefuseReason) (s : State) : (refuse r s).comIEn = s.comIEn := rfl
@[simp] theorem refuse_divIEn (r : RefuseReason) (s : State) : (refuse r s).divIEn = s.divIEn := rfl
@[simp] theorem refuse_comIrq (r : RefuseReason) (s : State) : (refuse r s).comIrq = s.comIrq := rfl
@[simp] theorem refuse_mfinActIrq (r : RefuseReason) (s : State) : (refuse r s).mfinActIrq = s.mfinActIrq := rfl
@[simp] theorem refuse_crcIrq (r : RefuseReason) (s : State) : (refuse r s).crcIrq = s.crcIrq := rfl
@[simp] theorem refuse_err (r : RefuseReason) (s : State) : (refuse r s).err = s.err := rfl
@[simp] theorem refuse_fifo (r : RefuseReason) (s : State) : (refuse r s).fifo = s.fifo := rfl
@[simp] theorem refuse_waterLevel (r : RefuseReason) (s : State) : (refuse r s).waterLevel = s.waterLevel := rfl
@[simp] theorem refuse_startSend (r : RefuseReason) (s : State) : (refuse r s).startSend = s.startSend := rfl
@[simp] theorem refuse_rxAlign (r : RefuseReason) (s : State) : (refuse r s).rxAlign = s.rxAlign := rfl
@[simp] theorem refuse_txLastBits (r : RefuseReason) (s : State) : (refuse r s).txLastBits = s.txLastBits := rfl
@[simp] theorem refuse_rxLastBits (r : RefuseReason) (s : State) : (refuse r s).rxLastBits = s.rxLastBits := rfl
@[simp] theorem refuse_valuesAfterColl (r : RefuseReason) (s : State) : (refuse r s).valuesAfterColl = s.valuesAfterColl := rfl
@[simp] theorem refuse_collPosNotValid (r : RefuseReason) (s : State) : (refuse r s).collPosNotValid = s.collPosNotValid := rfl
@[simp] theorem refuse_collPos (r : RefuseReason) (s : State) : (refuse r s).collPos = s.collPos := rfl
@[simp] theorem refuse_mode (r : RefuseReason) (s : State) : (refuse r s).mode = s.mode := rfl
@[simp] theorem refuse_txMode (r : RefuseReason) (s : State) : (refuse r s).txMode = s.txMode := rfl
@[simp] theorem refuse_rxMode (r : RefuseReason) (s : State) : (refuse r s).rxMode = s.rxMode := rfl
@[simp] theorem refuse_txControl (r : RefuseReason) (s : State) : (refuse r s).txControl = s.txControl := rfl
@[simp] theorem refuse_txASK (r : RefuseReason) (s : State) : (refuse r s).txASK = s.txASK := rfl
@[simp] theorem refuse_tempSensClear (r : RefuseReason) (s : State) : (refuse r s).tempSensClear = s.tempSensClear := rfl
@[simp] theorem refuse_i2cForceHS (r : RefuseReason) (s : State) : (refuse r s).i2cForceHS = s.i2cForceHS := rfl
@[simp] theorem refuse_crc (r : RefuseReason) (s : State) : (refuse r s).crc = s.crc := rfl
@[simp] theorem refuse_crcResult (r : RefuseReason) (s : State) : (refuse r s).crcResult = s.crcResult := rfl
@[simp] theorem refuse_crcReady (r : RefuseReason) (s : State) : (refuse r s).crcReady = s.crcReady := rfl
@[simp] theorem refuse_tMode (r : RefuseReason) (s : State) : (refuse r s).tMode = s.tMode := rfl
@[simp] theorem refuse_tPrescaler (r : RefuseReason) (s : State) : (refuse r s).tPrescaler = s.tPrescaler := rfl
@[simp] theorem refuse_tReload (r : RefuseReason) (s : State) : (refuse r s).tReload = s.tReload := rfl
@[simp] theorem refuse_tCounter (r : RefuseReason) (s : State) : (refuse r s).tCounter = s.tCounter := rfl
@[simp] theorem refuse_tRunning (r : RefuseReason) (s : State) : (refuse r s).tRunning = s.tRunning := rfl
@[simp] theorem refuse_modem (r : RefuseReason) (s : State) : (refuse r s).modem = s.modem := rfl
@[simp] theorem refuse_txReq (r : RefuseReason) (s : State) : (refuse r s).txReq = s.txReq := rfl
@[simp] theorem refuse_pendingResp (r : RefuseReason) (s : State) : (refuse r s).pendingResp = s.pendingResp := rfl
@[simp] theorem refuse_other (r : RefuseReason) (s : State) : (refuse r s).other = s.other := rfl
@[simp] theorem refuse_nrst (r : RefuseReason) (s : State) : (refuse r s).nrst = s.nrst := rfl
@[simp] theorem refuse_refused (r : RefuseReason) (s : State) : (refuse r s).refused = s.refused.or (some r) := rfl
@[simp] theorem refuse_hist (r : RefuseReason) (s : State) : (refuse r s).hist = s.hist ++ [.refused r] := rfl
@[simp] theorem refuse_busOut (r : RefuseReason) (s : State) : (refuse r s).busOut = s.busOut := rfl
@[simp] theorem refuse_pinOut (r : RefuseReason) (s : State) : (refuse r s).pinOut = s.pinOut := rfl
@[simp] theorem refuse_draws (r : RefuseReason) (s : State) : (refuse r s).draws = s.draws := rfl
@[simp] theorem refuse_hostOps (r : RefuseReason) (s : State) : (refuse r s).hostOps = s.hostOps := rfl
@[simp] theorem refuse_sched (r : RefuseReason) (s : State) : (refuse r s).sched = s.sched := rfl
@[simp] theorem refuse_field (r : RefuseReason) (s : State) : (refuse r s).field = s.field := rfl
@[simp] theorem refuse_cancels (r : RefuseReason) (s : State) : (refuse r s).cancels = s.cancels := rfl
@[simp] theorem refuse_allowOverheat (r : RefuseReason) (s : State) : (refuse r s).allowOverheat = s.allowOverheat := rfl

/-! ### answer -/

@[simp] theorem answer_cmd (v : Byte) (s : State) : (answer v s).cmd = s.cmd := rfl
@[simp] theorem answer_rcvOff (v : Byte) (s : State) : (answer v s).rcvOff = s.rcvOff := rfl
@[simp] theorem answer_powerDown (v : Byte) (s : State) : (answer v s).powerDown = s.powerDown := rfl
@[simp] theorem answer_pdBusy (v : Byte) (s : State) : (answer v s).pdBusy = s.pdBusy := rfl
@[simp] theorem answer_comIEn (v : Byte) (s : State) : (answer v s).comIEn = s.comIEn := rfl
@[simp] theorem answer_divIEn (v : Byte) (s : State) : (answer v s).divIEn = s.divIEn := rfl
@[simp] theorem answer_comIrq (v : Byte) (s : State) : (answer v s).comIrq = s.comIrq := rfl
@[simp] theorem answer_mfinActIrq (v : Byte) (s : State) : (answer v s).mfinActIrq = s.mfinActIrq := rfl
@[simp] theorem answer_crcIrq (v : Byte) (s : State) : (answer v s).crcIrq = s.crcIrq := rfl
@[simp] theorem answer_err (v : Byte) (s : State) : (answer v s).err = s.err := rfl
@[simp] theorem answer_fifo (v : Byte) (s : State) : (answer v s).fifo = s.fifo := rfl
@[simp] theorem answer_waterLevel (v : Byte) (s : State) : (answer v s).waterLevel = s.waterLevel := rfl
@[simp] theorem answer_startSend (v : Byte) (s : State) : (answer v s).startSend = s.startSend := rfl
@[simp] theorem answer_rxAlign (v : Byte) (s : State) : (answer v s).rxAlign = s.rxAlign := rfl
@[simp] theorem answer_txLastBits (v : Byte) (s : State) : (answer v s).txLastBits = s.txLastBits := rfl
@[simp] theorem answer_rxLastBits (v : Byte) (s : State) : (answer v s).rxLastBits = s.rxLastBits := rfl
@[simp] theorem answer_valuesAfterColl (v : Byte) (s : State) : (answer v s).valuesAfterColl = s.valuesAfterColl := rfl
@[simp] theorem answer_collPosNotValid (v : Byte) (s : State) : (answer v s).collPosNotValid = s.collPosNotValid := rfl
@[simp] theorem answer_collPos (v : Byte) (s : State) : (answer v s).collPos = s.collPos := rfl
@[simp] theorem answer_mode (v : Byte) (s : State) : (answer v s).mode = s.mode := rfl
@[simp] theorem answer_txMode (v : Byte) (s : State) : (answer v s).txMode = s.txMode := rfl
@[simp] theorem answer_rxMode (v : Byte) (s : State) : (answer v s).rxMode = s.rxMode := rfl
@[simp] theorem answer_txControl (v : Byte) (s : State) : (answer v s).txControl = s.txControl := rfl
@[simp] theorem answer_txASK (v : Byte) (s : State) : (answer v s).txASK = s.txASK := rfl
@[simp] theorem answer_tempSensClear (v : Byte) (s : State) : (answer v s).tempSensClear = s.tempSensClear := rfl
@[simp] theorem answer_i2cForceHS (v : Byte) (s : State) : (answer v s).i2cForceHS = s.i2cForceHS := rfl
@[simp] theorem answer_crc (v : Byte) (s : State) : (answer v s).crc = s.crc := rfl
@[simp] theorem answer_crcResult (v : Byte) (s : State) : (answer v s).crcResult = s.crcResult := rfl
@[simp] theorem answer_crcReady (v : Byte) (s : State) : (answer v s).crcReady = s.crcReady := rfl
@[simp] theorem answer_tMode (v : Byte) (s : State) : (answer v s).tMode = s.tMode := rfl
@[simp] theorem answer_tPrescaler (v : Byte) (s : State) : (answer v s).tPrescaler = s.tPrescaler := rfl
@[simp] theorem answer_tReload (v : Byte) (s : State) : (answer v s).tReload = s.tReload := rfl
@[simp] theorem answer_tCounter (v : Byte) (s : State) : (answer v s).tCounter = s.tCounter := rfl
@[simp] theorem answer_tRunning (v : Byte) (s : State) : (answer v s).tRunning = s.tRunning := rfl
@[simp] theorem answer_modem (v : Byte) (s : State) : (answer v s).modem = s.modem := rfl
@[simp] theorem answer_txReq (v : Byte) (s : State) : (answer v s).txReq = s.txReq := rfl
@[simp] theorem answer_pendingResp (v : Byte) (s : State) : (answer v s).pendingResp = s.pendingResp := rfl
@[simp] theorem answer_other (v : Byte) (s : State) : (answer v s).other = s.other := rfl
@[simp] theorem answer_nrst (v : Byte) (s : State) : (answer v s).nrst = s.nrst := rfl
@[simp] theorem answer_refused (v : Byte) (s : State) : (answer v s).refused = s.refused := rfl
@[simp] theorem answer_hist (v : Byte) (s : State) : (answer v s).hist = s.hist := rfl
@[simp] theorem answer_busOut (v : Byte) (s : State) : (answer v s).busOut = v := rfl
@[simp] theorem answer_pinOut (v : Byte) (s : State) : (answer v s).pinOut = s.pinOut := rfl
@[simp] theorem answer_draws (v : Byte) (s : State) : (answer v s).draws = s.draws + 1 := rfl
@[simp] theorem answer_hostOps (v : Byte) (s : State) : (answer v s).hostOps = s.hostOps := rfl
@[simp] theorem answer_sched (v : Byte) (s : State) : (answer v s).sched = s.sched := rfl
@[simp] theorem answer_field (v : Byte) (s : State) : (answer v s).field = s.field := rfl
@[simp] theorem answer_cancels (v : Byte) (s : State) : (answer v s).cancels = s.cancels := rfl
@[simp] theorem answer_allowOverheat (v : Byte) (s : State) : (answer v s).allowOverheat = s.allowOverheat := rfl

/-! ### raiseCom -/

@[simp] theorem raiseCom_cmd (m : BitVec 7) (s : State) : (raiseCom m s).cmd = s.cmd := rfl
@[simp] theorem raiseCom_rcvOff (m : BitVec 7) (s : State) : (raiseCom m s).rcvOff = s.rcvOff := rfl
@[simp] theorem raiseCom_powerDown (m : BitVec 7) (s : State) : (raiseCom m s).powerDown = s.powerDown := rfl
@[simp] theorem raiseCom_pdBusy (m : BitVec 7) (s : State) : (raiseCom m s).pdBusy = s.pdBusy := rfl
@[simp] theorem raiseCom_comIEn (m : BitVec 7) (s : State) : (raiseCom m s).comIEn = s.comIEn := rfl
@[simp] theorem raiseCom_divIEn (m : BitVec 7) (s : State) : (raiseCom m s).divIEn = s.divIEn := rfl
@[simp] theorem raiseCom_comIrq (m : BitVec 7) (s : State) : (raiseCom m s).comIrq = s.comIrq ||| m := rfl
@[simp] theorem raiseCom_mfinActIrq (m : BitVec 7) (s : State) : (raiseCom m s).mfinActIrq = s.mfinActIrq := rfl
@[simp] theorem raiseCom_crcIrq (m : BitVec 7) (s : State) : (raiseCom m s).crcIrq = s.crcIrq := rfl
@[simp] theorem raiseCom_err (m : BitVec 7) (s : State) : (raiseCom m s).err = s.err := rfl
@[simp] theorem raiseCom_fifo (m : BitVec 7) (s : State) : (raiseCom m s).fifo = s.fifo := rfl
@[simp] theorem raiseCom_waterLevel (m : BitVec 7) (s : State) : (raiseCom m s).waterLevel = s.waterLevel := rfl
@[simp] theorem raiseCom_startSend (m : BitVec 7) (s : State) : (raiseCom m s).startSend = s.startSend := rfl
@[simp] theorem raiseCom_rxAlign (m : BitVec 7) (s : State) : (raiseCom m s).rxAlign = s.rxAlign := rfl
@[simp] theorem raiseCom_txLastBits (m : BitVec 7) (s : State) : (raiseCom m s).txLastBits = s.txLastBits := rfl
@[simp] theorem raiseCom_rxLastBits (m : BitVec 7) (s : State) : (raiseCom m s).rxLastBits = s.rxLastBits := rfl
@[simp] theorem raiseCom_valuesAfterColl (m : BitVec 7) (s : State) : (raiseCom m s).valuesAfterColl = s.valuesAfterColl := rfl
@[simp] theorem raiseCom_collPosNotValid (m : BitVec 7) (s : State) : (raiseCom m s).collPosNotValid = s.collPosNotValid := rfl
@[simp] theorem raiseCom_collPos (m : BitVec 7) (s : State) : (raiseCom m s).collPos = s.collPos := rfl
@[simp] theorem raiseCom_mode (m : BitVec 7) (s : State) : (raiseCom m s).mode = s.mode := rfl
@[simp] theorem raiseCom_txMode (m : BitVec 7) (s : State) : (raiseCom m s).txMode = s.txMode := rfl
@[simp] theorem raiseCom_rxMode (m : BitVec 7) (s : State) : (raiseCom m s).rxMode = s.rxMode := rfl
@[simp] theorem raiseCom_txControl (m : BitVec 7) (s : State) : (raiseCom m s).txControl = s.txControl := rfl
@[simp] theorem raiseCom_txASK (m : BitVec 7) (s : State) : (raiseCom m s).txASK = s.txASK := rfl
@[simp] theorem raiseCom_tempSensClear (m : BitVec 7) (s : State) : (raiseCom m s).tempSensClear = s.tempSensClear := rfl
@[simp] theorem raiseCom_i2cForceHS (m : BitVec 7) (s : State) : (raiseCom m s).i2cForceHS = s.i2cForceHS := rfl
@[simp] theorem raiseCom_crc (m : BitVec 7) (s : State) : (raiseCom m s).crc = s.crc := rfl
@[simp] theorem raiseCom_crcResult (m : BitVec 7) (s : State) : (raiseCom m s).crcResult = s.crcResult := rfl
@[simp] theorem raiseCom_crcReady (m : BitVec 7) (s : State) : (raiseCom m s).crcReady = s.crcReady := rfl
@[simp] theorem raiseCom_tMode (m : BitVec 7) (s : State) : (raiseCom m s).tMode = s.tMode := rfl
@[simp] theorem raiseCom_tPrescaler (m : BitVec 7) (s : State) : (raiseCom m s).tPrescaler = s.tPrescaler := rfl
@[simp] theorem raiseCom_tReload (m : BitVec 7) (s : State) : (raiseCom m s).tReload = s.tReload := rfl
@[simp] theorem raiseCom_tCounter (m : BitVec 7) (s : State) : (raiseCom m s).tCounter = s.tCounter := rfl
@[simp] theorem raiseCom_tRunning (m : BitVec 7) (s : State) : (raiseCom m s).tRunning = s.tRunning := rfl
@[simp] theorem raiseCom_modem (m : BitVec 7) (s : State) : (raiseCom m s).modem = s.modem := rfl
@[simp] theorem raiseCom_txReq (m : BitVec 7) (s : State) : (raiseCom m s).txReq = s.txReq := rfl
@[simp] theorem raiseCom_pendingResp (m : BitVec 7) (s : State) : (raiseCom m s).pendingResp = s.pendingResp := rfl
@[simp] theorem raiseCom_other (m : BitVec 7) (s : State) : (raiseCom m s).other = s.other := rfl
@[simp] theorem raiseCom_nrst (m : BitVec 7) (s : State) : (raiseCom m s).nrst = s.nrst := rfl
@[simp] theorem raiseCom_refused (m : BitVec 7) (s : State) : (raiseCom m s).refused = s.refused := rfl
@[simp] theorem raiseCom_hist (m : BitVec 7) (s : State) : (raiseCom m s).hist = s.hist := rfl
@[simp] theorem raiseCom_busOut (m : BitVec 7) (s : State) : (raiseCom m s).busOut = s.busOut := rfl
@[simp] theorem raiseCom_pinOut (m : BitVec 7) (s : State) : (raiseCom m s).pinOut = s.pinOut := rfl
@[simp] theorem raiseCom_draws (m : BitVec 7) (s : State) : (raiseCom m s).draws = s.draws := rfl
@[simp] theorem raiseCom_hostOps (m : BitVec 7) (s : State) : (raiseCom m s).hostOps = s.hostOps := rfl
@[simp] theorem raiseCom_sched (m : BitVec 7) (s : State) : (raiseCom m s).sched = s.sched := rfl
@[simp] theorem raiseCom_field (m : BitVec 7) (s : State) : (raiseCom m s).field = s.field := rfl
@[simp] theorem raiseCom_cancels (m : BitVec 7) (s : State) : (raiseCom m s).cancels = s.cancels := rfl
@[simp] theorem raiseCom_allowOverheat (m : BitVec 7) (s : State) : (raiseCom m s).allowOverheat = s.allowOverheat := rfl

/-! ### setErr -/

@[simp] theorem setErr_cmd (m : Byte) (s : State) : (setErr m s).cmd = s.cmd := rfl
@[simp] theorem setErr_rcvOff (m : Byte) (s : State) : (setErr m s).rcvOff = s.rcvOff := rfl
@[simp] theorem setErr_powerDown (m : Byte) (s : State) : (setErr m s).powerDown = s.powerDown := rfl
@[simp] theorem setErr_pdBusy (m : Byte) (s : State) : (setErr m s).pdBusy = s.pdBusy := rfl
@[simp] theorem setErr_comIEn (m : Byte) (s : State) : (setErr m s).comIEn = s.comIEn := rfl
@[simp] theorem setErr_divIEn (m : Byte) (s : State) : (setErr m s).divIEn = s.divIEn := rfl
@[simp] theorem setErr_comIrq (m : Byte) (s : State) : (setErr m s).comIrq = s.comIrq ||| errIRq := rfl
@[simp] theorem setErr_mfinActIrq (m : Byte) (s : State) : (setErr m s).mfinActIrq = s.mfinActIrq := rfl
@[simp] theorem setErr_crcIrq (m : Byte) (s : State) : (setErr m s).crcIrq = s.crcIrq := rfl
@[simp] theorem setErr_err (m : Byte) (s : State) : (setErr m s).err = s.err ||| m := rfl
@[simp] theorem setErr_fifo (m : Byte) (s : State) : (setErr m s).fifo = s.fifo := rfl
@[simp] theorem setErr_waterLevel (m : Byte) (s : State) : (setErr m s).waterLevel = s.waterLevel := rfl
@[simp] theorem setErr_startSend (m : Byte) (s : State) : (setErr m s).startSend = s.startSend := rfl
@[simp] theorem setErr_rxAlign (m : Byte) (s : State) : (setErr m s).rxAlign = s.rxAlign := rfl
@[simp] theorem setErr_txLastBits (m : Byte) (s : State) : (setErr m s).txLastBits = s.txLastBits := rfl
@[simp] theorem setErr_rxLastBits (m : Byte) (s : State) : (setErr m s).rxLastBits = s.rxLastBits := rfl
@[simp] theorem setErr_valuesAfterColl (m : Byte) (s : State) : (setErr m s).valuesAfterColl = s.valuesAfterColl := rfl
@[simp] theorem setErr_collPosNotValid (m : Byte) (s : State) : (setErr m s).collPosNotValid = s.collPosNotValid := rfl
@[simp] theorem setErr_collPos (m : Byte) (s : State) : (setErr m s).collPos = s.collPos := rfl
@[simp] theorem setErr_mode (m : Byte) (s : State) : (setErr m s).mode = s.mode := rfl
@[simp] theorem setErr_txMode (m : Byte) (s : State) : (setErr m s).txMode = s.txMode := rfl
@[simp] theorem setErr_rxMode (m : Byte) (s : State) : (setErr m s).rxMode = s.rxMode := rfl
@[simp] theorem setErr_txControl (m : Byte) (s : State) : (setErr m s).txControl = s.txControl := rfl
@[simp] theorem setErr_txASK (m : Byte) (s : State) : (setErr m s).txASK = s.txASK := rfl
@[simp] theorem setErr_tempSensClear (m : Byte) (s : State) : (setErr m s).tempSensClear = s.tempSensClear := rfl
@[simp] theorem setErr_i2cForceHS (m : Byte) (s : State) : (setErr m s).i2cForceHS = s.i2cForceHS := rfl
@[simp] theorem setErr_crc (m : Byte) (s : State) : (setErr m s).crc = s.crc := rfl
@[simp] theorem setErr_crcResult (m : Byte) (s : State) : (setErr m s).crcResult = s.crcResult := rfl
@[simp] theorem setErr_crcReady (m : Byte) (s : State) : (setErr m s).crcReady = s.crcReady := rfl
@[simp] theorem setErr_tMode (m : Byte) (s : State) : (setErr m s).tMode = s.tMode := rfl
@[simp] theorem setErr_tPrescaler (m : Byte) (s : State) : (setErr m s).tPrescaler = s.tPrescaler := rfl
@[simp] theorem setErr_tReload (m : Byte) (s : State) : (setErr m s).tReload = s.tReload := rfl
@[simp] theorem setErr_tCounter (m : Byte) (s : State) : (setErr m s).tCounter = s.tCounter := rfl
@[simp] theorem setErr_tRunning (m : Byte) (s : State) : (setErr m s).tRunning = s.tRunning := rfl
@[simp] theorem setErr_modem (m : Byte) (s : State) : (setErr m s).modem = s.modem := rfl
@[simp] theorem setErr_txReq (m : Byte) (s : State) : (setErr m s).txReq = s.txReq := rfl
@[simp] theorem setErr_pendingResp (m : Byte) (s : State) : (setErr m s).pendingResp = s.pendingResp := rfl
@[simp] theorem setErr_other (m : Byte) (s : State) : (setErr m s).other = s.other := rfl
@[simp] theorem setErr_nrst (m : Byte) (s : State) : (setErr m s).nrst = s.nrst := rfl
@[simp] theorem setErr_refused (m : Byte) (s : State) : (setErr m s).refused = s.refused := rfl
@[simp] theorem setErr_hist (m : Byte) (s : State) : (setErr m s).hist = s.hist := rfl
@[simp] theorem setErr_busOut (m : Byte) (s : State) : (setErr m s).busOut = s.busOut := rfl
@[simp] theorem setErr_pinOut (m : Byte) (s : State) : (setErr m s).pinOut = s.pinOut := rfl
@[simp] theorem setErr_draws (m : Byte) (s : State) : (setErr m s).draws = s.draws := rfl
@[simp] theorem setErr_hostOps (m : Byte) (s : State) : (setErr m s).hostOps = s.hostOps := rfl
@[simp] theorem setErr_sched (m : Byte) (s : State) : (setErr m s).sched = s.sched := rfl
@[simp] theorem setErr_field (m : Byte) (s : State) : (setErr m s).field = s.field := rfl
@[simp] theorem setErr_cancels (m : Byte) (s : State) : (setErr m s).cancels = s.cancels := rfl
@[simp] theorem setErr_allowOverheat (m : Byte) (s : State) : (setErr m s).allowOverheat = s.allowOverheat := rfl

/-! ### clearErr -/

@[simp] theorem clearErr_cmd (m : Byte) (s : State) : (clearErr m s).cmd = s.cmd := rfl
@[simp] theorem clearErr_rcvOff (m : Byte) (s : State) : (clearErr m s).rcvOff = s.rcvOff := rfl
@[simp] theorem clearErr_powerDown (m : Byte) (s : State) : (clearErr m s).powerDown = s.powerDown := rfl
@[simp] theorem clearErr_pdBusy (m : Byte) (s : State) : (clearErr m s).pdBusy = s.pdBusy := rfl
@[simp] theorem clearErr_comIEn (m : Byte) (s : State) : (clearErr m s).comIEn = s.comIEn := rfl
@[simp] theorem clearErr_divIEn (m : Byte) (s : State) : (clearErr m s).divIEn = s.divIEn := rfl
@[simp] theorem clearErr_comIrq (m : Byte) (s : State) : (clearErr m s).comIrq = s.comIrq := rfl
@[simp] theorem clearErr_mfinActIrq (m : Byte) (s : State) : (clearErr m s).mfinActIrq = s.mfinActIrq := rfl
@[simp] theorem clearErr_crcIrq (m : Byte) (s : State) : (clearErr m s).crcIrq = s.crcIrq := rfl
@[simp] theorem clearErr_err (m : Byte) (s : State) : (clearErr m s).err = s.err &&& ~~~m := rfl
@[simp] theorem clearErr_fifo (m : Byte) (s : State) : (clearErr m s).fifo = s.fifo := rfl
@[simp] theorem clearErr_waterLevel (m : Byte) (s : State) : (clearErr m s).waterLevel = s.waterLevel := rfl
@[simp] theorem clearErr_startSend (m : Byte) (s : State) : (clearErr m s).startSend = s.startSend := rfl
@[simp] theorem clearErr_rxAlign (m : Byte) (s : State) : (clearErr m s).rxAlign = s.rxAlign := rfl
@[simp] theorem clearErr_txLastBits (m : Byte) (s : State) : (clearErr m s).txLastBits = s.txLastBits := rfl
@[simp] theorem clearErr_rxLastBits (m : Byte) (s : State) : (clearErr m s).rxLastBits = s.rxLastBits := rfl
@[simp] theorem clearErr_valuesAfterColl (m : Byte) (s : State) : (clearErr m s).valuesAfterColl = s.valuesAfterColl := rfl
@[simp] theorem clearErr_collPosNotValid (m : Byte) (s : State) : (clearErr m s).collPosNotValid = s.collPosNotValid := rfl
@[simp] theorem clearErr_collPos (m : Byte) (s : State) : (clearErr m s).collPos = s.collPos := rfl
@[simp] theorem clearErr_mode (m : Byte) (s : State) : (clearErr m s).mode = s.mode := rfl
@[simp] theorem clearErr_txMode (m : Byte) (s : State) : (clearErr m s).txMode = s.txMode := rfl
@[simp] theorem clearErr_rxMode (m : Byte) (s : State) : (clearErr m s).rxMode = s.rxMode := rfl
@[simp] theorem clearErr_txControl (m : Byte) (s : State) : (clearErr m s).txControl = s.txControl := rfl
@[simp] theorem clearErr_txASK (m : Byte) (s : State) : (clearErr m s).txASK = s.txASK := rfl
@[simp] theorem clearErr_tempSensClear (m : Byte) (s : State) : (clearErr m s).tempSensClear = s.tempSensClear := rfl
@[simp] theorem clearErr_i2cForceHS (m : Byte) (s : State) : (clearErr m s).i2cForceHS = s.i2cForceHS := rfl
@[simp] theorem clearErr_crc (m : Byte) (s : State) : (clearErr m s).crc = s.crc := rfl
@[simp] theorem clearErr_crcResult (m : Byte) (s : State) : (clearErr m s).crcResult = s.crcResult := rfl
@[simp] theorem clearErr_crcReady (m : Byte) (s : State) : (clearErr m s).crcReady = s.crcReady := rfl
@[simp] theorem clearErr_tMode (m : Byte) (s : State) : (clearErr m s).tMode = s.tMode := rfl
@[simp] theorem clearErr_tPrescaler (m : Byte) (s : State) : (clearErr m s).tPrescaler = s.tPrescaler := rfl
@[simp] theorem clearErr_tReload (m : Byte) (s : State) : (clearErr m s).tReload = s.tReload := rfl
@[simp] theorem clearErr_tCounter (m : Byte) (s : State) : (clearErr m s).tCounter = s.tCounter := rfl
@[simp] theorem clearErr_tRunning (m : Byte) (s : State) : (clearErr m s).tRunning = s.tRunning := rfl
@[simp] theorem clearErr_modem (m : Byte) (s : State) : (clearErr m s).modem = s.modem := rfl
@[simp] theorem clearErr_txReq (m : Byte) (s : State) : (clearErr m s).txReq = s.txReq := rfl
@[simp] theorem clearErr_pendingResp (m : Byte) (s : State) : (clearErr m s).pendingResp = s.pendingResp := rfl
@[simp] theorem clearErr_other (m : Byte) (s : State) : (clearErr m s).other = s.other := rfl
@[simp] theorem clearErr_nrst (m : Byte) (s : State) : (clearErr m s).nrst = s.nrst := rfl
@[simp] theorem clearErr_refused (m : Byte) (s : State) : (clearErr m s).refused = s.refused := rfl
@[simp] theorem clearErr_hist (m : Byte) (s : State) : (clearErr m s).hist = s.hist := rfl
@[simp] theorem clearErr_busOut (m : Byte) (s : State) : (clearErr m s).busOut = s.busOut := rfl
@[simp] theorem clearErr_pinOut (m : Byte) (s : State) : (clearErr m s).pinOut = s.pinOut := rfl
@[simp] theorem clearErr_draws (m : Byte) (s : State) : (clearErr m s).draws = s.draws := rfl
@[simp] theorem clearErr_hostOps (m : Byte) (s : State) : (clearErr m s).hostOps = s.hostOps := rfl
@[simp] theorem clearErr_sched (m : Byte) (s : State) : (clearErr m s).sched = s.sched := rfl
@[simp] theorem clearErr_field (m : Byte) (s : State) : (clearErr m s).field = s.field := rfl
@[simp] theorem clearErr_cancels (m : Byte) (s : State) : (clearErr m s).cancels = s.cancels := rfl
@[simp] theorem clearErr_allowOverheat (m : Byte) (s : State) : (clearErr m s).allowOverheat = s.allowOverheat := rfl

/-! ### fifoDropOldest -/

@[simp] theorem fifoDropOldest_cmd (s : State) : (fifoDropOldest s).cmd = s.cmd := rfl
@[simp] theorem fifoDropOldest_rcvOff (s : State) : (fifoDropOldest s).rcvOff = s.rcvOff := rfl
@[simp] theorem fifoDropOldest_powerDown (s : State) : (fifoDropOldest s).powerDown = s.powerDown := rfl
@[simp] theorem fifoDropOldest_pdBusy (s : State) : (fifoDropOldest s).pdBusy = s.pdBusy := rfl
@[simp] theorem fifoDropOldest_comIEn (s : State) : (fifoDropOldest s).comIEn = s.comIEn := rfl
@[simp] theorem fifoDropOldest_divIEn (s : State) : (fifoDropOldest s).divIEn = s.divIEn := rfl
@[simp] theorem fifoDropOldest_comIrq (s : State) : (fifoDropOldest s).comIrq = s.comIrq := rfl
@[simp] theorem fifoDropOldest_mfinActIrq (s : State) : (fifoDropOldest s).mfinActIrq = s.mfinActIrq := rfl
@[simp] theorem fifoDropOldest_crcIrq (s : State) : (fifoDropOldest s).crcIrq = s.crcIrq := rfl
@[simp] theorem fifoDropOldest_err (s : State) : (fifoDropOldest s).err = s.err := rfl
@[simp] theorem fifoDropOldest_fifo (s : State) : (fifoDropOldest s).fifo = s.fifo.tail := rfl
@[simp] theorem fifoDropOldest_waterLevel (s : State) : (fifoDropOldest s).waterLevel = s.waterLevel := rfl
@[simp] theorem fifoDropOldest_startSend (s : State) : (fifoDropOldest s).startSend = s.startSend := rfl
@[simp] theorem fifoDropOldest_rxAlign (s : State) : (fifoDropOldest s).rxAlign = s.rxAlign := rfl
@[simp] theorem fifoDropOldest_txLastBits (s : State) : (fifoDropOldest s).txLastBits = s.txLastBits := rfl
@[simp] theorem fifoDropOldest_rxLastBits (s : State) : (fifoDropOldest s).rxLastBits = s.rxLastBits := rfl
@[simp] theorem fifoDropOldest_valuesAfterColl (s : State) : (fifoDropOldest s).valuesAfterColl = s.valuesAfterColl := rfl
@[simp] theorem fifoDropOldest_collPosNotValid (s : State) : (fifoDropOldest s).collPosNotValid = s.collPosNotValid := rfl
@[simp] theorem fifoDropOldest_collPos (s : State) : (fifoDropOldest s).collPos = s.collPos := rfl
@[simp] theorem fifoDropOldest_mode (s : State) : (fifoDropOldest s).mode = s.mode := rfl
@[simp] theorem fifoDropOldest_txMode (s : State) : (fifoDropOldest s).txMode = s.txMode := rfl
@[simp] theorem fifoDropOldest_rxMode (s : State) : (fifoDropOldest s).rxMode = s.rxMode := rfl
@[simp] theorem fifoDropOldest_txControl (s : State) : (fifoDropOldest s).txControl = s.txControl := rfl
@[simp] theorem fifoDropOldest_txASK (s : State) : (fifoDropOldest s).txASK = s.txASK := rfl
@[simp] theorem fifoDropOldest_tempSensClear (s : State) : (fifoDropOldest s).tempSensClear = s.tempSensClear := rfl
@[simp] theorem fifoDropOldest_i2cForceHS (s : State) : (fifoDropOldest s).i2cForceHS = s.i2cForceHS := rfl
@[simp] theorem fifoDropOldest_crc (s : State) : (fifoDropOldest s).crc = s.crc := rfl
@[simp] theorem fifoDropOldest_crcResult (s : State) : (fifoDropOldest s).crcResult = s.crcResult := rfl
@[simp] theorem fifoDropOldest_crcReady (s : State) : (fifoDropOldest s).crcReady = s.crcReady := rfl
@[simp] theorem fifoDropOldest_tMode (s : State) : (fifoDropOldest s).tMode = s.tMode := rfl
@[simp] theorem fifoDropOldest_tPrescaler (s : State) : (fifoDropOldest s).tPrescaler = s.tPrescaler := rfl
@[simp] theorem fifoDropOldest_tReload (s : State) : (fifoDropOldest s).tReload = s.tReload := rfl
@[simp] theorem fifoDropOldest_tCounter (s : State) : (fifoDropOldest s).tCounter = s.tCounter := rfl
@[simp] theorem fifoDropOldest_tRunning (s : State) : (fifoDropOldest s).tRunning = s.tRunning := rfl
@[simp] theorem fifoDropOldest_modem (s : State) : (fifoDropOldest s).modem = s.modem := rfl
@[simp] theorem fifoDropOldest_txReq (s : State) : (fifoDropOldest s).txReq = s.txReq := rfl
@[simp] theorem fifoDropOldest_pendingResp (s : State) : (fifoDropOldest s).pendingResp = s.pendingResp := rfl
@[simp] theorem fifoDropOldest_other (s : State) : (fifoDropOldest s).other = s.other := rfl
@[simp] theorem fifoDropOldest_nrst (s : State) : (fifoDropOldest s).nrst = s.nrst := rfl
@[simp] theorem fifoDropOldest_refused (s : State) : (fifoDropOldest s).refused = s.refused := rfl
@[simp] theorem fifoDropOldest_hist (s : State) : (fifoDropOldest s).hist = s.hist := rfl
@[simp] theorem fifoDropOldest_busOut (s : State) : (fifoDropOldest s).busOut = s.busOut := rfl
@[simp] theorem fifoDropOldest_pinOut (s : State) : (fifoDropOldest s).pinOut = s.pinOut := rfl
@[simp] theorem fifoDropOldest_draws (s : State) : (fifoDropOldest s).draws = s.draws := rfl
@[simp] theorem fifoDropOldest_hostOps (s : State) : (fifoDropOldest s).hostOps = s.hostOps := rfl
@[simp] theorem fifoDropOldest_sched (s : State) : (fifoDropOldest s).sched = s.sched := rfl
@[simp] theorem fifoDropOldest_field (s : State) : (fifoDropOldest s).field = s.field := rfl
@[simp] theorem fifoDropOldest_cancels (s : State) : (fifoDropOldest s).cancels = s.cancels := rfl
@[simp] theorem fifoDropOldest_allowOverheat (s : State) : (fifoDropOldest s).allowOverheat = s.allowOverheat := rfl

/-! ### stopCommand -/

@[simp] theorem stopCommand_cmd (s : State) : (stopCommand s).cmd = .idle := rfl
@[simp] theorem stopCommand_rcvOff (s : State) : (stopCommand s).rcvOff = s.rcvOff := rfl
@[simp] theorem stopCommand_powerDown (s : State) : (stopCommand s).powerDown = s.powerDown := rfl
@[simp] theorem stopCommand_pdBusy (s : State) : (stopCommand s).pdBusy = s.pdBusy := rfl
@[simp] theorem stopCommand_comIEn (s : State) : (stopCommand s).comIEn = s.comIEn := rfl
@[simp] theorem stopCommand_divIEn (s : State) : (stopCommand s).divIEn = s.divIEn := rfl
@[simp] theorem stopCommand_comIrq (s : State) : (stopCommand s).comIrq = s.comIrq := rfl
@[simp] theorem stopCommand_mfinActIrq (s : State) : (stopCommand s).mfinActIrq = s.mfinActIrq := rfl
@[simp] theorem stopCommand_crcIrq (s : State) : (stopCommand s).crcIrq = s.crcIrq := rfl
@[simp] theorem stopCommand_err (s : State) : (stopCommand s).err = s.err := rfl
@[simp] theorem stopCommand_fifo (s : State) : (stopCommand s).fifo = s.fifo := rfl
@[simp] theorem stopCommand_waterLevel (s : State) : (stopCommand s).waterLevel = s.waterLevel := rfl
@[simp] theorem stopCommand_startSend (s : State) : (stopCommand s).startSend = s.startSend := rfl
@[simp] theorem stopCommand_rxAlign (s : State) : (stopCommand s).rxAlign = s.rxAlign := rfl
@[simp] theorem stopCommand_txLastBits (s : State) : (stopCommand s).txLastBits = s.txLastBits := rfl
@[simp] theorem stopCommand_rxLastBits (s : State) : (stopCommand s).rxLastBits = s.rxLastBits := rfl
@[simp] theorem stopCommand_valuesAfterColl (s : State) : (stopCommand s).valuesAfterColl = s.valuesAfterColl := rfl
@[simp] theorem stopCommand_collPosNotValid (s : State) : (stopCommand s).collPosNotValid = s.collPosNotValid := rfl
@[simp] theorem stopCommand_collPos (s : State) : (stopCommand s).collPos = s.collPos := rfl
@[simp] theorem stopCommand_mode (s : State) : (stopCommand s).mode = s.mode := rfl
@[simp] theorem stopCommand_txMode (s : State) : (stopCommand s).txMode = s.txMode := rfl
@[simp] theorem stopCommand_rxMode (s : State) : (stopCommand s).rxMode = s.rxMode := rfl
@[simp] theorem stopCommand_txControl (s : State) : (stopCommand s).txControl = s.txControl := rfl
@[simp] theorem stopCommand_txASK (s : State) : (stopCommand s).txASK = s.txASK := rfl
@[simp] theorem stopCommand_tempSensClear (s : State) : (stopCommand s).tempSensClear = s.tempSensClear := rfl
@[simp] theorem stopCommand_i2cForceHS (s : State) : (stopCommand s).i2cForceHS = s.i2cForceHS := rfl
@[simp] theorem stopCommand_crc (s : State) : (stopCommand s).crc = s.crc := rfl
@[simp] theorem stopCommand_crcResult (s : State) : (stopCommand s).crcResult = s.crcResult := rfl
@[simp] theorem stopCommand_crcReady (s : State) : (stopCommand s).crcReady = s.crcReady := rfl
@[simp] theorem stopCommand_tMode (s : State) : (stopCommand s).tMode = s.tMode := rfl
@[simp] theorem stopCommand_tPrescaler (s : State) : (stopCommand s).tPrescaler = s.tPrescaler := rfl
@[simp] theorem stopCommand_tReload (s : State) : (stopCommand s).tReload = s.tReload := rfl
@[simp] theorem stopCommand_tCounter (s : State) : (stopCommand s).tCounter = s.tCounter := rfl
@[simp] theorem stopCommand_tRunning (s : State) : (stopCommand s).tRunning = s.tRunning := rfl
@[simp] theorem stopCommand_modem (s : State) : (stopCommand s).modem = .idle := rfl
@[simp] theorem stopCommand_txReq (s : State) : (stopCommand s).txReq = false := rfl
@[simp] theorem stopCommand_pendingResp (s : State) : (stopCommand s).pendingResp = none := rfl
@[simp] theorem stopCommand_other (s : State) : (stopCommand s).other = s.other := rfl
@[simp] theorem stopCommand_nrst (s : State) : (stopCommand s).nrst = s.nrst := rfl
@[simp] theorem stopCommand_refused (s : State) : (stopCommand s).refused = s.refused := rfl
@[simp] theorem stopCommand_hist (s : State) : (stopCommand s).hist = s.hist := rfl
@[simp] theorem stopCommand_busOut (s : State) : (stopCommand s).busOut = s.busOut := rfl
@[simp] theorem stopCommand_pinOut (s : State) : (stopCommand s).pinOut = s.pinOut := rfl
@[simp] theorem stopCommand_draws (s : State) : (stopCommand s).draws = s.draws := rfl
@[simp] theorem stopCommand_hostOps (s : State) : (stopCommand s).hostOps = s.hostOps := rfl
@[simp] theorem stopCommand_sched (s : State) : (stopCommand s).sched = s.sched := rfl
@[simp] theorem stopCommand_field (s : State) : (stopCommand s).field = s.field := rfl
@[simp] theorem stopCommand_cancels (s : State) : (stopCommand s).cancels = s.cancels := rfl
@[simp] theorem stopCommand_allowOverheat (s : State) : (stopCommand s).allowOverheat = s.allowOverheat := rfl

/-! ### clearErrAtStart -/

@[simp] theorem clearErrAtStart_cmd (s : State) : (clearErrAtStart s).cmd = s.cmd := rfl
@[simp] theorem clearErrAtStart_rcvOff (s : State) : (clearErrAtStart s).rcvOff = s.rcvOff := rfl
@[simp] theorem clearErrAtStart_powerDown (s : State) : (clearErrAtStart s).powerDown = s.powerDown := rfl
@[simp] theorem clearErrAtStart_pdBusy (s : State) : (clearErrAtStart s).pdBusy = s.pdBusy := rfl
@[simp] theorem clearErrAtStart_comIEn (s : State) : (clearErrAtStart s).comIEn = s.comIEn := rfl
@[simp] theorem clearErrAtStart_divIEn (s : State) : (clearErrAtStart s).divIEn = s.divIEn := rfl
@[simp] theorem clearErrAtStart_comIrq (s : State) : (clearErrAtStart s).comIrq = s.comIrq := rfl
@[simp] theorem clearErrAtStart_mfinActIrq (s : State) : (clearErrAtStart s).mfinActIrq = s.mfinActIrq := rfl
@[simp] theorem clearErrAtStart_crcIrq (s : State) : (clearErrAtStart s).crcIrq = s.crcIrq := rfl
@[simp] theorem clearErrAtStart_err (s : State) : (clearErrAtStart s).err = s.err &&& tempErr := rfl
@[simp] theorem clearErrAtStart_fifo (s : State) : (clearErrAtStart s).fifo = s.fifo := rfl
@[simp] theorem clearErrAtStart_waterLevel (s : State) : (clearErrAtStart s).waterLevel = s.waterLevel := rfl
@[simp] theorem clearErrAtStart_startSend (s : State) : (clearErrAtStart s).startSend = s.startSend := rfl
@[simp] theorem clearErrAtStart_rxAlign (s : State) : (clearErrAtStart s).rxAlign = s.rxAlign := rfl
@[simp] theorem clearErrAtStart_txLastBits (s : State) : (clearErrAtStart s).txLastBits = s.txLastBits := rfl
@[simp] theorem clearErrAtStart_rxLastBits (s : State) : (clearErrAtStart s).rxLastBits = s.rxLastBits := rfl
@[simp] theorem clearErrAtStart_valuesAfterColl (s : State) : (clearErrAtStart s).valuesAfterColl = s.valuesAfterColl := rfl
@[simp] theorem clearErrAtStart_collPosNotValid (s : State) : (clearErrAtStart s).collPosNotValid = s.collPosNotValid := rfl
@[simp] theorem clearErrAtStart_collPos (s : State) : (clearErrAtStart s).collPos = s.collPos := rfl
@[simp] theorem clearErrAtStart_mode (s : State) : (clearErrAtStart s).mode = s.mode := rfl
@[simp] theorem clearErrAtStart_txMode (s : State) : (clearErrAtStart s).txMode = s.txMode := rfl
@[simp] theorem clearErrAtStart_rxMode (s : State) : (clearErrAtStart s).rxMode = s.rxMode := rfl
@[simp] theorem clearErrAtStart_txControl (s : State) : (clearErrAtStart s).txControl = s.txControl := rfl
@[simp] theorem clearErrAtStart_txASK (s : State) : (clearErrAtStart s).txASK = s.txASK := rfl
@[simp] theorem clearErrAtStart_tempSensClear (s : State) : (clearErrAtStart s).tempSensClear = s.tempSensClear := rfl
@[simp] theorem clearErrAtStart_i2cForceHS (s : State) : (clearErrAtStart s).i2cForceHS = s.i2cForceHS := rfl
@[simp] theorem clearErrAtStart_crc (s : State) : (clearErrAtStart s).crc = s.crc := rfl
@[simp] theorem clearErrAtStart_crcResult (s : State) : (clearErrAtStart s).crcResult = s.crcResult := rfl
@[simp] theorem clearErrAtStart_crcReady (s : State) : (clearErrAtStart s).crcReady = s.crcReady := rfl
@[simp] theorem clearErrAtStart_tMode (s : State) : (clearErrAtStart s).tMode = s.tMode := rfl
@[simp] theorem clearErrAtStart_tPrescaler (s : State) : (clearErrAtStart s).tPrescaler = s.tPrescaler := rfl
@[simp] theorem clearErrAtStart_tReload (s : State) : (clearErrAtStart s).tReload = s.tReload := rfl
@[simp] theorem clearErrAtStart_tCounter (s : State) : (clearErrAtStart s).tCounter = s.tCounter := rfl
@[simp] theorem clearErrAtStart_tRunning (s : State) : (clearErrAtStart s).tRunning = s.tRunning := rfl
@[simp] theorem clearErrAtStart_modem (s : State) : (clearErrAtStart s).modem = s.modem := rfl
@[simp] theorem clearErrAtStart_txReq (s : State) : (clearErrAtStart s).txReq = s.txReq := rfl
@[simp] theorem clearErrAtStart_pendingResp (s : State) : (clearErrAtStart s).pendingResp = s.pendingResp := rfl
@[simp] theorem clearErrAtStart_other (s : State) : (clearErrAtStart s).other = s.other := rfl
@[simp] theorem clearErrAtStart_nrst (s : State) : (clearErrAtStart s).nrst = s.nrst := rfl
@[simp] theorem clearErrAtStart_refused (s : State) : (clearErrAtStart s).refused = s.refused := rfl
@[simp] theorem clearErrAtStart_hist (s : State) : (clearErrAtStart s).hist = s.hist := rfl
@[simp] theorem clearErrAtStart_busOut (s : State) : (clearErrAtStart s).busOut = s.busOut := rfl
@[simp] theorem clearErrAtStart_pinOut (s : State) : (clearErrAtStart s).pinOut = s.pinOut := rfl
@[simp] theorem clearErrAtStart_draws (s : State) : (clearErrAtStart s).draws = s.draws := rfl
@[simp] theorem clearErrAtStart_hostOps (s : State) : (clearErrAtStart s).hostOps = s.hostOps := rfl
@[simp] theorem clearErrAtStart_sched (s : State) : (clearErrAtStart s).sched = s.sched := rfl
@[simp] theorem clearErrAtStart_field (s : State) : (clearErrAtStart s).field = s.field := rfl
@[simp] theorem clearErrAtStart_cancels (s : State) : (clearErrAtStart s).cancels = s.cancels := rfl
@[simp] theorem clearErrAtStart_allowOverheat (s : State) : (clearErrAtStart s).allowOverheat = s.allowOverheat := rfl

/-! ### timerStop -/

@[simp] theorem timerStop_cmd (s : State) : (timerStop s).cmd = s.cmd := rfl
@[simp] theorem timerStop_rcvOff (s : State) : (timerStop s).rcvOff = s.rcvOff := rfl
@[simp] theorem timerStop_powerDown (s : State) : (timerStop s).powerDown = s.powerDown := rfl
@[simp] theorem timerStop_pdBusy (s : State) : (timerStop s).pdBusy = s.pdBusy := rfl
@[simp] theorem timerStop_comIEn (s : State) : (timerStop s).comIEn = s.comIEn := rfl
@[simp] theorem timerStop_divIEn (s : State) : (timerStop s).divIEn = s.divIEn := rfl
@[simp] theorem timerStop_comIrq (s : State) : (timerStop s).comIrq = s.comIrq := rfl
@[simp] theorem timerStop_mfinActIrq (s : State) : (timerStop s).mfinActIrq = s.mfinActIrq := rfl
@[simp] theorem timerStop_crcIrq (s : State) : (timerStop s).crcIrq = s.crcIrq := rfl
@[simp] theorem timerStop_err (s : State) : (timerStop s).err = s.err := rfl
@[simp] theorem timerStop_fifo (s : State) : (timerStop s).fifo = s.fifo := rfl
@[simp] theorem timerStop_waterLevel (s : State) : (timerStop s).waterLevel = s.waterLevel := rfl
@[simp] theorem timerStop_startSend (s : State) : (timerStop s).startSend = s.startSend := rfl
@[simp] theorem timerStop_rxAlign (s : State) : (timerStop s).rxAlign = s.rxAlign := rfl
@[simp] theorem timerStop_txLastBits (s : State) : (timerStop s).txLastBits = s.txLastBits := rfl
@[simp] theorem timerStop_rxLastBits (s : State) : (timerStop s).rxLastBits = s.rxLastBits := rfl
@[simp] theorem timerStop_valuesAfterColl (s : State) : (timerStop s).valuesAfterColl = s.valuesAfterColl := rfl
@[simp] theorem timerStop_collPosNotValid (s : State) : (timerStop s).collPosNotValid = s.collPosNotValid := rfl
@[simp] theorem timerStop_collPos (s : State) : (timerStop s).collPos = s.collPos := rfl
@[simp] theorem timerStop_mode (s : State) : (timerStop s).mode = s.mode := rfl
@[simp] theorem timerStop_txMode (s : State) : (timerStop s).txMode = s.txMode := rfl
@[simp] theorem timerStop_rxMode (s : State) : (timerStop s).rxMode = s.rxMode := rfl
@[simp] theorem timerStop_txControl (s : State) : (timerStop s).txControl = s.txControl := rfl
@[simp] theorem timerStop_txASK (s : State) : (timerStop s).txASK = s.txASK := rfl
@[simp] theorem timerStop_tempSensClear (s : State) : (timerStop s).tempSensClear = s.tempSensClear := rfl
@[simp] theorem timerStop_i2cForceHS (s : State) : (timerStop s).i2cForceHS = s.i2cForceHS := rfl
@[simp] theorem timerStop_crc (s : State) : (timerStop s).crc = s.crc := rfl
@[simp] theorem timerStop_crcResult (s : State) : (timerStop s).crcResult = s.crcResult := rfl
@[simp] theorem timerStop_crcReady (s : State) : (timerStop s).crcReady = s.crcReady := rfl
@[simp] theorem timerStop_tMode (s : State) : (timerStop s).tMode = s.tMode := rfl
@[simp] theorem timerStop_tPrescaler (s : State) : (timerStop s).tPrescaler = s.tPrescaler := rfl
@[simp] theorem timerStop_tReload (s : State) : (timerStop s).tReload = s.tReload := rfl
@[simp] theorem timerStop_tCounter (s : State) : (timerStop s).tCounter = Config.freeBits 16 s.draws := rfl
@[simp] theorem timerStop_tRunning (s : State) : (timerStop s).tRunning = false := rfl
@[simp] theorem timerStop_modem (s : State) : (timerStop s).modem = s.modem := rfl
@[simp] theorem timerStop_txReq (s : State) : (timerStop s).txReq = s.txReq := rfl
@[simp] theorem timerStop_pendingResp (s : State) : (timerStop s).pendingResp = s.pendingResp := rfl
@[simp] theorem timerStop_other (s : State) : (timerStop s).other = s.other := rfl
@[simp] theorem timerStop_nrst (s : State) : (timerStop s).nrst = s.nrst := rfl
@[simp] theorem timerStop_refused (s : State) : (timerStop s).refused = s.refused := rfl
@[simp] theorem timerStop_hist (s : State) : (timerStop s).hist = s.hist := rfl
@[simp] theorem timerStop_busOut (s : State) : (timerStop s).busOut = s.busOut := rfl
@[simp] theorem timerStop_pinOut (s : State) : (timerStop s).pinOut = s.pinOut := rfl
@[simp] theorem timerStop_draws (s : State) : (timerStop s).draws = s.draws + 1 := rfl
@[simp] theorem timerStop_hostOps (s : State) : (timerStop s).hostOps = s.hostOps := rfl
@[simp] theorem timerStop_sched (s : State) : (timerStop s).sched = s.sched := rfl
@[simp] theorem timerStop_field (s : State) : (timerStop s).field = s.field := rfl
@[simp] theorem timerStop_cancels (s : State) : (timerStop s).cancels = s.cancels := rfl
@[simp] theorem timerStop_allowOverheat (s : State) : (timerStop s).allowOverheat = s.allowOverheat := rfl

end Sys2Proof.Machine
end

