-- ==== Sys2Proof/Laws/Ops.lean ====
section
/-! SUPPORT. One lemma for each shared operation that says what it can do, which later proofs cite in place of unfolding
it: the guards of a bus transaction, the register map, the FIFO operations, the alerts and the agents' moves. -/

namespace Sys2Proof.Machine

open Sys2Proof

/-! ### The guards of a bus transaction (rules R200, R201) -/

theorem busWrite_ready (f : State → State) {s : State} (h : BusReady s) : busWrite f s = f s := by
  unfold busWrite
  rw [if_neg (by simp [h.released]), if_neg (by simp [h.settled])]

theorem busWrite_busy (f : State → State) {s : State} (hn : s.nrst = true) (hb : s.pdBusy = true) :
    busWrite f s = s := by
  unfold busWrite
  rw [if_neg (by simp [hn]), if_pos hb]

theorem busWrite_held (f : State → State) {s : State} (hn : s.nrst = false) :
    busWrite f s = refuse .busAccessInHardPowerDown s := by
  unfold busWrite
  rw [if_pos hn]

/-- What a bus write can do: refuse, nothing, or the register's effect. -/
theorem busWrite_cases (f : State → State) (s : State) :
    (s.nrst = false ∧ busWrite f s = refuse .busAccessInHardPowerDown s) ∨
      (s.nrst = true ∧ s.pdBusy = true ∧ busWrite f s = s) ∨ (BusReady s ∧ busWrite f s = f s) := by
  cases hn : s.nrst
  · exact .inl ⟨rfl, busWrite_held f hn⟩
  · cases hb : s.pdBusy
    · exact .inr (.inr ⟨⟨hn, hb⟩, busWrite_ready f ⟨hn, hb⟩⟩)
    · exact .inr (.inl ⟨rfl, rfl, busWrite_busy f hn hb⟩)

theorem busRead_ready (a : RegAddr) (f : State → State) {s : State} (h : BusReady s) : busRead a f s = f s := by
  unfold busRead
  rw [if_neg (by simp [h.released]), if_neg (by simp [h.settled])]

theorem busRead_busy {a : RegAddr} (f : State → State) {s : State} (hn : s.nrst = true) (hb : s.pdBusy = true)
    (ha : a ≠ commandReg) : busRead a f s = answer (Config.freeBits 8 s.draws) s := by
  unfold busRead
  rw [if_neg (by simp [hn]), if_pos ⟨hb, ha⟩]

theorem busRead_command (f : State → State) {s : State} (hn : s.nrst = true) : busRead commandReg f s = f s := by
  unfold busRead
  rw [if_neg (by simp [hn]), if_neg (by simp)]

theorem busRead_held (a : RegAddr) (f : State → State) {s : State} (hn : s.nrst = false) :
    busRead a f s = refuse .busAccessInHardPowerDown s := by
  unfold busRead
  rw [if_pos hn]

/-- What a bus read can do: refuse, answer a free byte, or the register's effect. -/
theorem busRead_cases (a : RegAddr) (f : State → State) (s : State) :
    (s.nrst = false ∧ busRead a f s = refuse .busAccessInHardPowerDown s) ∨
      (s.nrst = true ∧ busRead a f s = answer (Config.freeBits 8 s.draws) s) ∨
      (s.nrst = true ∧ busRead a f s = f s) := by
  cases hn : s.nrst
  · exact .inl ⟨rfl, busRead_held a f hn⟩
  · by_cases hb : s.pdBusy = true ∧ a ≠ commandReg
    · exact .inr (.inl ⟨rfl, busRead_busy f hn hb.1 hb.2⟩)
    · refine .inr (.inr ⟨rfl, ?_⟩)
      unfold busRead
      rw [if_neg (by simp [hn]), if_neg hb]

theorem busBadAddr_cases (s : State) :
    (s.nrst = false ∧ busBadAddr s = refuse .busAccessInHardPowerDown s) ∨
      (s.nrst = true ∧ busBadAddr s = refuse .addressOutOfRange s) := by
  unfold busBadAddr
  cases hn : s.nrst
  · exact .inl ⟨rfl, by rw [if_pos rfl]⟩
  · exact .inr ⟨rfl, by rw [if_neg (by simp)]⟩

/-! ### The register map -/

@[simp] theorem regAt_command_addr : regAt 0x01#6 = .command := rfl
@[simp] theorem regAt_comIEn_addr : regAt 0x02#6 = .comIEn := rfl
@[simp] theorem regAt_divIEn_addr : regAt 0x03#6 = .divIEn := rfl
@[simp] theorem regAt_comIrq_addr : regAt 0x04#6 = .comIrq := rfl
@[simp] theorem regAt_divIrq_addr : regAt 0x05#6 = .divIrq := rfl
@[simp] theorem regAt_error_addr : regAt 0x06#6 = .error := rfl
@[simp] theorem regAt_status1_addr : regAt 0x07#6 = .status1 := rfl
@[simp] theorem regAt_status2_addr : regAt 0x08#6 = .status2 := rfl
@[simp] theorem regAt_fifoData_addr : regAt 0x09#6 = .fifoData := rfl
@[simp] theorem regAt_fifoLevel_addr : regAt 0x0A#6 = .fifoLevel := rfl
@[simp] theorem regAt_waterLevel_addr : regAt 0x0B#6 = .waterLevel := rfl
@[simp] theorem regAt_control_addr : regAt 0x0C#6 = .control := rfl
@[simp] theorem regAt_bitFraming_addr : regAt 0x0D#6 = .bitFraming := rfl
@[simp] theorem regAt_coll_addr : regAt 0x0E#6 = .coll := rfl
@[simp] theorem regAt_mode_addr : regAt 0x11#6 = .mode := rfl
@[simp] theorem regAt_txMode_addr : regAt 0x12#6 = .txMode := rfl
@[simp] theorem regAt_rxMode_addr : regAt 0x13#6 = .rxMode := rfl
@[simp] theorem regAt_txControl_addr : regAt 0x14#6 = .txControl := rfl
@[simp] theorem regAt_txASK_addr : regAt 0x15#6 = .txASK := rfl
@[simp] theorem regAt_crcResultH_addr : regAt 0x21#6 = .crcResultH := rfl
@[simp] theorem regAt_crcResultL_addr : regAt 0x22#6 = .crcResultL := rfl
@[simp] theorem regAt_tMode_addr : regAt 0x2A#6 = .tMode := rfl
@[simp] theorem regAt_tPrescaler_addr : regAt 0x2B#6 = .tPrescaler := rfl
@[simp] theorem regAt_tReloadH_addr : regAt 0x2C#6 = .tReloadH := rfl
@[simp] theorem regAt_tReloadL_addr : regAt 0x2D#6 = .tReloadL := rfl
@[simp] theorem regAt_tCounterH_addr : regAt 0x2E#6 = .tCounterH := rfl
@[simp] theorem regAt_tCounterL_addr : regAt 0x2F#6 = .tCounterL := rfl
@[simp] theorem regAt_version_addr : regAt 0x37#6 = .version := rfl

theorem regAt_fifoData (a : RegAddr) : regAt a = .fifoData ↔ a = fifoDataReg := by revert a; decide

/-- A read of any register but FIFODataReg only answers. -/
theorem registerRead_answers {a : RegAddr} (s : State) (ha : a ≠ fifoDataReg) :
    registerRead a s = answer (readValue s a (Config.freeBits 8 s.draws)) s := by
  unfold registerRead
  rw [if_neg fun h => ha ((regAt_fifoData a).1 h)]

/-- A read of any register but FIFODataReg completes and only answers. -/
theorem exec_rd (a : RegAddr) {s : State} (hn : s.nrst = true) (ha : a ≠ fifoDataReg) :
    exec (.rd a) s = .next (answer (if s.pdBusy = true ∧ a ≠ commandReg then Config.freeBits 8 s.draws
      else readValue s a (Config.freeBits 8 s.draws)) s) := by
  show Host.Outcome.next _ = _
  congr 1
  unfold busRead
  rw [if_neg (by simp [hn]), registerRead_answers s ha]
  split <;> rfl

/-- The bits that are not drawn show what the register shows. -/
theorem drawBitsIn_and (m d v k : Byte) (h : m &&& k = 0) : drawBitsIn m d v &&& k = v &&& k := by
  unfold drawBitsIn
  ext i hi
  have hb := congrArg (fun b : Byte => b[i]) h
  simp only [BitVec.getElem_and, BitVec.ofNat_eq_ofNat, BitVec.getElem_zero] at hb
  simp only [BitVec.getElem_and, BitVec.getElem_or, BitVec.getElem_not]
  cases hm : m[i] <;> cases hk : k[i] <;> simp_all

/-- A read shows, at bits that are not reserved, what `shownByte` says. -/
theorem readsAs_of_shown {a : RegAddr} {mask v : Byte} {s : State} (h : BusReady s) (ha : a ≠ fifoDataReg)
    (hm : reservedBits (regAt a) &&& mask = 0) (hv : ∀ d, shownByte s a d (regAt a) &&& mask = v) :
    ReadsAs a mask v s := by
  refine ⟨readValue s a (Config.freeBits 8 s.draws), ?_, ?_⟩
  · rw [exec_rd a h.released ha, if_neg (by simp [h.settled])]
    rfl
  · rw [readValue, drawBitsIn_and _ _ _ _ hm, hv]

/-! ### The FIFO -/

/-- What a push can do. -/
theorem fifoPush_cases (b : Byte) (s : State) :
    (s.fifo.length < Config.fifoDepth ∧ fifoPush b s = { s with fifo := s.fifo ++ [b] }) ∨
      (Config.fifoDepth ≤ s.fifo.length ∧ fifoPush b s = setErr bufferOvfl s) := by
  unfold fifoPush
  by_cases h : s.fifo.length < Config.fifoDepth
  · exact .inl ⟨h, by rw [if_pos h]⟩
  · exact .inr ⟨Nat.le_of_not_lt h, by rw [if_neg h]⟩

/-- A push keeps a FIFO within its depth. -/
theorem fifoPush_fits (b : Byte) {s : State} (h : s.fifo.length ≤ Config.fifoDepth) :
    (fifoPush b s).fifo.length ≤ Config.fifoDepth := by
  obtain ⟨hl, he⟩ | ⟨_, he⟩ := fifoPush_cases b s
  · rw [he]
    simp only [List.length_append, List.length_singleton]
    omega
  · rw [he]
    exact h

/-- `FifoPush` of a list: the bytes that fit are appended, and BufferOvfl with ErrIRq marks any that do not (rules R110,
R321). -/
theorem fifoPushAll_eq (bs : List Byte) (s : State) :
    fifoPushAll bs s = { s with
      fifo := s.fifo ++ bs.take (Config.fifoDepth - s.fifo.length)
      err := if bs ≠ [] ∧ Config.fifoDepth < s.fifo.length + bs.length then s.err ||| bufferOvfl else s.err
      comIrq := if bs ≠ [] ∧ Config.fifoDepth < s.fifo.length + bs.length then s.comIrq ||| errIRq
        else s.comIrq } := by
  induction bs generalizing s with
  | nil => simp [fifoPushAll]
  | cons b bs ih =>
    rw [fifoPushAll, ih]
    obtain ⟨hl, he⟩ | ⟨hl, he⟩ := fifoPush_cases b s
    · obtain ⟨k, hk⟩ : ∃ k, Config.fifoDepth - s.fifo.length = k + 1 := ⟨Config.fifoDepth - s.fifo.length - 1, by omega⟩
      have hk' : Config.fifoDepth - (s.fifo ++ [b]).length = k := by simp; omega
      rw [he]
      simp only [hk, hk', List.take_succ_cons, List.append_assoc, List.singleton_append]
      by_cases hb : bs = []
      · subst hb
        simp
        omega
      · have e : (Config.fifoDepth < (s.fifo ++ [b]).length + bs.length) =
            (Config.fifoDepth < s.fifo.length + (b :: bs).length) := by simp; omega
        simp only [e, hb, ne_eq, not_false_eq_true, true_and, List.cons_ne_nil]
    · rw [he]
      have hz : Config.fifoDepth - s.fifo.length = 0 := by omega
      have e : Config.fifoDepth < s.fifo.length + (b :: bs).length := by simp; omega
      simp only [setErr_fifo, hz, List.take_zero, List.append_nil, e, and_true, ne_eq, List.cons_ne_nil,
        not_false_eq_true, if_true]
      simp only [setErr, BitVec.or_assoc, BitVec.or_self, ite_self]

/-- The alerts change the request flags alone. -/
theorem withAlerts_eq (old new : State) :
    withAlerts old new = { new with comIrq := new.comIrq ||| risenAlerts old new } := rfl

/-- The flags that rise are rule R112's. -/
theorem risenAlerts_eq (old new : State) : risenAlerts old new = alertRise old new.fifo new.waterLevel := by
  unfold risenAlerts alertRise hiAlert loAlert
  simp [Nat.lt_sub_iff_add_lt]

/-! ### The command codes (rule R143) -/

theorem cmdClass_idle : cmdClass 0x0 = .start .idle := by decide
theorem cmdClass_calcCrc : cmdClass 0x3 = .start .calcCrc := by decide
theorem cmdClass_transceive : cmdClass 0xC = .start .transceive := by decide
theorem cmdClass_softReset : cmdClass 0xF = .start .softReset := by decide
theorem cmdClass_noCmdChange : cmdClass 0x7 = .noCmdChange := by decide

/-- Idle and NoCmdChange alone may be written with PowerDown = 1, or in soft power-down (rule R203). -/
theorem cmdClass_admitted (c : BitVec 4) :
    (cmdClass c ≠ .start .idle ∧ cmdClass c ≠ .noCmdChange) ↔ (c ≠ 0 ∧ c ≠ 7) := by
  revert c; decide

/-- What a command write outside soft power-down, with PowerDown = 0, does by the class of its code. -/
theorem commandWrite_awake (r : Bool) (c : BitVec 4) {s : State} (h : s.powerDown = false) :
    commandWrite r false c s = writeCommandCode c (setRcvOff r s) := by
  unfold commandWrite
  rw [if_neg (by simp [h]), if_neg (by simp)]

theorem commandWrite_asleep (r p : Bool) (c : BitVec 4) {s : State} (h : s.powerDown = true) :
    commandWrite r p c s = commandWhilePoweredDown p c (setRcvOff r s) := by
  unfold commandWrite
  rw [if_pos h]

theorem commandWrite_powerDown (r : Bool) (c : BitVec 4) {s : State} (h : s.powerDown = false) :
    commandWrite r true c s = enterPowerDown c (setRcvOff r s) := by
  unfold commandWrite
  rw [if_neg (by simp [h]), if_pos rfl]

/-! ### The agents -/

/-- An ENGINE move makes the step where it is enabled and nothing elsewhere. -/
theorem engineStep_cases (e : EngineStep) (s : State) :
    (engineEnabled e s = true ∧ engineStep e s = engineEffect e s) ∨
      (engineEnabled e s = false ∧ engineStep e s = s) := by
  unfold engineStep
  cases h : engineEnabled e s
  · exact .inr ⟨rfl, by rw [if_neg (by simp)]⟩
  · exact .inl ⟨rfl, by rw [if_pos rfl]⟩

theorem engineRuns_iff (s : State) : engineRuns s = true ↔ EngineReady s := by
  simp only [engineRuns, engineAwake, Bool.and_eq_true, Bool.not_eq_true']
  exact ⟨fun h => ⟨h.1.1, h.2, h.1.2⟩, fun h => ⟨⟨h.released, h.awake⟩, h.settled⟩⟩

theorem engineSteps_append (es es' : List EngineStep) (s : State) :
    engineSteps (es ++ es') s = engineSteps es' (engineSteps es s) := by
  induction es generalizing s with
  | nil => rfl
  | cons e es ih => exact ih (engineStep e s)

end Sys2Proof.Machine
end

