-- ==== Sys2Proof/Laws/Frames.lean ====
section
/-! SUPPORT. The frame of each compound operation: an equation that names every field the operation can change, so that
`congrArg` gives that any other field keeps its value. -/

namespace Sys2Proof.Machine

open Sys2Proof

/-! ### The timer -/

theorem timerStart_frame (s : State) :
    timerStart s = { s with
      tCounter := (timerStart s).tCounter, tRunning := (timerStart s).tRunning
      refused := (timerStart s).refused, hist := (timerStart s).hist } := by
  unfold timerStart
  split <;> rfl

theorem controlWrite_frame (v : Byte) (s : State) :
    controlWrite v s = { s with
      tCounter := (controlWrite v s).tCounter, tRunning := (controlWrite v s).tRunning
      draws := (controlWrite v s).draws, refused := (controlWrite v s).refused
      hist := (controlWrite v s).hist } := by
  unfold controlWrite
  split
  · rfl
  · split
    · rw [timerStart_frame]
    · rfl

theorem timerExpireEffect_frame (s : State) :
    timerExpireEffect s = { s with
      comIrq := s.comIrq ||| timerIRq, hist := s.hist ++ [.timerExpire]
      tCounter := (timerExpireEffect s).tCounter, tRunning := (timerExpireEffect s).tRunning } := by
  unfold timerExpireEffect
  dsimp only
  split <;> rfl

/-! ### The FIFO -/

theorem fifoPush_frame (b : Byte) (s : State) :
    fifoPush b s = { s with
      fifo := (fifoPush b s).fifo, err := (fifoPush b s).err, comIrq := (fifoPush b s).comIrq } := by
  unfold fifoPush
  split <;> rfl

theorem hostPush_frame (b : Byte) (s : State) :
    hostPush b s = { s with
      fifo := (hostPush b s).fifo, err := (hostPush b s).err, comIrq := (hostPush b s).comIrq
      crcReady := (hostPush b s).crcReady } := by
  unfold hostPush
  dsimp only
  rw [withAlerts_eq, fifoPush_frame]
  split <;> split <;> rfl

theorem hostPop_frame (s : State) :
    hostPop s = { s with
      fifo := s.fifo.tail, comIrq := (hostPop s).comIrq, busOut := (hostPop s).busOut, draws := s.draws + 1 } := by
  cases hf : s.fifo with
  | nil => simp [hostPop, hf, answer]
  | cons b bs => simp [hostPop, hf, answer, withAlerts_eq, fifoDropOldest]

theorem hostFlush_frame (s : State) :
    hostFlush s = { s with
      fifo := [], err := s.err &&& ~~~bufferOvfl, comIrq := s.comIrq ||| (hostFlush s).comIrq } := by
  unfold hostFlush
  rw [withAlerts_eq]
  simp only [fifoFlush, clearErr, State.mk.injEq, true_and, and_true]
  rw [← BitVec.or_assoc, BitVec.or_self]

/-! ### Commands -/

theorem writeCommandCode_frame (c : BitVec 4) (s : State) :
    writeCommandCode c s = { s with
      cmd := (writeCommandCode c s).cmd, modem := (writeCommandCode c s).modem
      txReq := (writeCommandCode c s).txReq, pendingResp := (writeCommandCode c s).pendingResp
      err := (writeCommandCode c s).err, crc := (writeCommandCode c s).crc
      crcReady := (writeCommandCode c s).crcReady, pdBusy := (writeCommandCode c s).pdBusy
      refused := (writeCommandCode c s).refused, hist := (writeCommandCode c s).hist } := by
  unfold writeCommandCode
  split
  · rfl
  · rfl
  · rfl
  · rename_i k _
    cases k
    · rfl
    · simp only [startCommandEngine, startCalcCrc]
      split <;> rfl
    · rfl
    · rfl

theorem commandWrite_frame (r p : Bool) (c : BitVec 4) (s : State) :
    commandWrite r p c s = { s with
      rcvOff := r, cmd := (commandWrite r p c s).cmd, powerDown := (commandWrite r p c s).powerDown
      pdBusy := (commandWrite r p c s).pdBusy, modem := (commandWrite r p c s).modem
      txReq := (commandWrite r p c s).txReq, pendingResp := (commandWrite r p c s).pendingResp
      err := (commandWrite r p c s).err, crc := (commandWrite r p c s).crc
      crcReady := (commandWrite r p c s).crcReady, refused := (commandWrite r p c s).refused
      hist := (commandWrite r p c s).hist } := by
  unfold commandWrite
  dsimp only
  split
  · unfold commandWhilePoweredDown
    split
    · rfl
    · split <;> rfl
  · split
    · unfold enterPowerDown
      dsimp only
      split
      · rfl
      · split <;> rfl
    · rw [writeCommandCode_frame]
      rfl

/-! ### The bit-framer -/

theorem startSendRequest_frame (s : State) :
    startSendRequest s = { s with txReq := (startSendRequest s).txReq } := by
  unfold startSendRequest
  split <;> rfl

theorem bitFramingWrite_frame (b : Bool) (a l : BitVec 3) (s : State) :
    bitFramingWrite b a l s = { s with
      startSend := b, rxAlign := a, txLastBits := l, txReq := (bitFramingWrite b a l s).txReq } := by
  unfold bitFramingWrite
  dsimp only
  split
  · rw [startSendRequest_frame]
  · rfl

theorem fieldMoved_frame (s : State) :
    fieldMoved s = { s with field := s.field.tail, draws := (fieldMoved s).draws } := by
  unfold fieldMoved
  split
  · simp_all
  · simp_all [bumpDraws]

theorem awaitReply_frame (s : State) :
    awaitReply s = { s with
      field := s.field.tail, draws := (awaitReply s).draws, pendingResp := fieldReply s, modem := .waitData
      tCounter := (awaitReply s).tCounter, tRunning := (awaitReply s).tRunning
      refused := (awaitReply s).refused, hist := (awaitReply s).hist } := by
  unfold awaitReply
  dsimp only
  rw [fieldMoved_frame]
  split
  · rw [timerStart_frame]
  · rfl

theorem txEffect_frame (s : State) :
    txEffect s = { s with
      fifo := (txEffect s).fifo, txReq := (txEffect s).txReq, hist := (txEffect s).hist
      comIrq := (txEffect s).comIrq, err := (txEffect s).err, collPosNotValid := (txEffect s).collPosNotValid
      collPos := (txEffect s).collPos, draws := (txEffect s).draws, field := (txEffect s).field
      pendingResp := (txEffect s).pendingResp, modem := (txEffect s).modem, tCounter := (txEffect s).tCounter
      tRunning := (txEffect s).tRunning, refused := (txEffect s).refused } := by
  unfold txEffect
  split
  · rfl
  · split
    · rfl
    · rw [withAlerts_eq, awaitReply_frame]
      rfl

theorem storeReply_frame (r : Reply) (s : State) :
    storeReply r s = { s with
      fifo := s.fifo ++ (receivedBytes s r).take (Config.fifoDepth - s.fifo.length)
      err := (storeReply r s).err, comIrq := (storeReply r s).comIrq
      rxLastBits := BitVec.ofNat 3 (s.rxAlign.toNat + r.syms.length)
      draws := s.draws + 8 * (receivedBytes s r).length } := by
  unfold storeReply
  rw [fifoPushAll_eq]
  rfl

theorem collision_frame (j : Option Nat) (s : State) :
    collision j s = { s with
      err := (collision j s).err, comIrq := (collision j s).comIrq
      collPosNotValid := (collision j s).collPosNotValid, collPos := (collision j s).collPos
      draws := (collision j s).draws } := by
  unfold collision
  split
  · rfl
  · dsimp only
    split <;> rfl

theorem flagReply_frame (r : Reply) (s : State) :
    flagReply r s = { s with
      err := (flagReply r s).err, comIrq := (flagReply r s).comIrq
      collPosNotValid := (collision (firstCollision r.syms) s).collPosNotValid
      collPos := (collision (firstCollision r.syms) s).collPos
      draws := (collision (firstCollision r.syms) s).draws } := by
  unfold flagReply
  dsimp only
  rw [collision_frame]
  split <;> split <;> rfl

theorem stopTimerOnReply_frame (r : Reply) (s : State) :
    stopTimerOnReply r s = { s with
      tRunning := (stopTimerOnReply r s).tRunning, tCounter := (stopTimerOnReply r s).tCounter
      draws := (stopTimerOnReply r s).draws } := by
  unfold stopTimerOnReply
  split <;> rfl

theorem rxEffect_frame (s : State) :
    rxEffect s = { s with
      fifo := (rxEffect s).fifo, err := (rxEffect s).err, comIrq := (rxEffect s).comIrq
      rxLastBits := (rxEffect s).rxLastBits, collPosNotValid := (rxEffect s).collPosNotValid
      collPos := (rxEffect s).collPos, draws := (rxEffect s).draws, pendingResp := none
      tRunning := (rxEffect s).tRunning, tCounter := (rxEffect s).tCounter, modem := (rxEffect s).modem
      hist := (rxEffect s).hist } := by
  cases h : s.pendingResp with
  | none =>
    have e : rxEffect s = s := by simp only [rxEffect, h]
    rw [e, ← h]
  | some r =>
    simp only [rxEffect, h]
    have h₁ := storeReply_frame r { s with pendingResp := none }
    generalize storeReply r { s with pendingResp := none } = s₁ at h₁ ⊢
    have h₂ := flagReply_frame r s₁
    generalize flagReply r s₁ = s₂ at h₂ ⊢
    generalize collision (firstCollision r.syms) s₁ = s' at h₂
    have h₃ := stopTimerOnReply_frame r s₂
    generalize stopTimerOnReply r s₂ = s₃ at h₃ ⊢
    rw [withAlerts_eq]
    generalize risenAlerts s _ = m
    rw [h₃, h₂, h₁]
    rfl

/-! ### The CRC engine -/

theorem crcByteEffect_frame (s : State) :
    crcByteEffect s = { s with
      fifo := s.fifo.tail, crc := (crcByteEffect s).crc, hist := (crcByteEffect s).hist
      comIrq := (crcByteEffect s).comIrq } := by
  cases hf : s.fifo with
  | nil =>
    have e : crcByteEffect s = s := by simp only [crcByteEffect, hf]
    rw [e, List.tail_nil, ← hf]
  | cons b bs => simp [crcByteEffect, hf, withAlerts_eq, logEvent, fifoDropOldest]

end Sys2Proof.Machine
end

