-- ==== Sys2Proof/Laws/Framer.lean ====
section
/-! SUPPORT. What the bit-string functions of the bit-framer, the CRC register's shift and the poll budgets do, said
once: lengths, the bit that stands at a position, the first collision, and the shift's linearity. -/

namespace Sys2Proof.Machine

open Sys2Proof

/-! ### Bits in bytes -/

theorem byteOfBits_getLsbD (bits : List Bool) (k : Nat) (hk : k < 8) :
    (byteOfBits bits).getLsbD k = bits.getD k false := by
  induction bits generalizing k with
  | nil => simp [byteOfBits]
  | cons b bits ih =>
    simp only [byteOfBits, List.foldr_cons] at ih ⊢
    cases k with
    | zero => simp
    | succ k =>
      have := ih k (by omega)
      rw [BitVec.getLsbD_or, BitVec.getLsbD_shiftLeft]
      simp only [List.getD_cons_succ]
      rw [← this]
      simp [hk]

theorem bytesOfBits_length (n : Nat) (bits : List Bool) : (bytesOfBits n bits).length = n := by
  induction n generalizing bits with
  | zero => rfl
  | succ n ih => simp [bytesOfBits, ih]

theorem bytesOfBits_getElem? (n : Nat) (bits : List Bool) (j : Nat) (hj : j < n) :
    (bytesOfBits n bits)[j]? = some (byteOfBits ((bits.drop (8 * j)).take 8)) := by
  induction n generalizing bits j with
  | zero => omega
  | succ n ih =>
    cases j with
    | zero => simp [bytesOfBits]
    | succ j =>
      simp only [bytesOfBits, List.getElem?_cons_succ]
      rw [ih _ _ (by omega)]
      simp [List.drop_drop, Nat.mul_succ, Nat.add_comm]

/-! ### Received bits -/

/-- The bit a symbol gives: a collided symbol gives the free bit `f`. -/
def symBit (y : Sys2Proof.Sym) (f : Bool) : Bool :=
  match y with
  | .zero => false
  | .one => true
  | .x => f

theorem receivedBits_length (keep : Bool) (free : Nat → Bool) (k : Nat) (seen : Bool) (ys : List Sys2Proof.Sym) :
    (receivedBits keep free k seen ys).length = ys.length := by
  induction ys generalizing k seen with
  | nil => rfl
  | cons y ys ih => simp [receivedBits, ih]

theorem receivedBits_getElem? (keep : Bool) (free : Nat → Bool) (k : Nat) (seen : Bool) (ys : List Sys2Proof.Sym)
    (i : Nat) (y : Sys2Proof.Sym) (h : ys[i]? = some y) :
    (receivedBits keep free k seen ys)[i]? =
      some (if (seen || (ys.take (i + 1)).contains .x) && !keep then false else symBit y (free (k + i))) := by
  induction ys generalizing k seen i with
  | nil => simp at h
  | cons z ys ih =>
    cases i with
    | zero =>
      simp at h
      subst h
      cases z <;> cases seen <;> cases keep <;> simp [receivedBits, symBit]
    | succ i =>
      simp only [List.getElem?_cons_succ] at h
      simp only [receivedBits, List.getElem?_cons_succ, ih _ _ _ h, List.take_succ_cons, List.contains_cons]
      congr 2
      · cases z <;> cases seen <;> simp
      · congr 2
        omega

theorem receivedBytes_length (s : State) (r : Reply) :
    (receivedBytes s r).length = (s.rxAlign.toNat + r.syms.length + 7) / 8 := by
  simp only [receivedBytes, pack, bytesOfBits_length, receivedBits_length]

theorem firstCollision_eq (ys : List Sys2Proof.Sym) :
    firstCollision ys = if ys.contains .x then some (ys.idxOf .x + 1) else none := by
  induction ys with
  | nil => rfl
  | cons y ys ih =>
    cases y
    · simp only [firstCollision, ih]
      by_cases h : ys.contains .x
      · simp_all [List.idxOf_cons] <;> rfl
      · simp_all
    · simp only [firstCollision, ih]
      by_cases h : ys.contains .x
      · simp_all [List.idxOf_cons] <;> rfl
      · simp_all
    · simp [firstCollision]

/-! ### The CRC register -/

theorem crcShift_xor (a b : Word16) : crcShift (a ^^^ b) = crcShift a ^^^ crcShift b := by
  unfold crcShift
  have : (a ^^^ b).getLsbD 0 = (a.getLsbD 0 ^^ b.getLsbD 0) := by simp
  rw [this]
  cases a.getLsbD 0 <;> cases b.getLsbD 0 <;> simp <;> ext i hi <;> simp <;> grind

theorem crcShifts_xor (n : Nat) (a b : Word16) : crcShifts n (a ^^^ b) = crcShifts n a ^^^ crcShifts n b := by
  induction n generalizing a b with
  | zero => rfl
  | succ n ih => simp only [crcShifts, crcShift_xor, ih]

/-- A byte in the upper half of the register comes out unchanged in the lower half. -/
theorem crcShifts_of_high : ∀ h : Byte, crcShifts 8 (h.setWidth 16 <<< 8) = h.setWidth 16 := by decide +kernel

theorem crcA_append (init : Word16) (bs cs : List Byte) : crcA init (bs ++ cs) = crcA (crcA init bs) cs := by
  simp [crcA]

/-! ### Premises on FIELD (rule R313) -/

/-- A merged reply holds the merge and no error mark. -/
theorem mergedReply_spec {answers : List (List Bool)} {r : Reply} (h : mergedReply answers = some r) :
    r.syms = mergeAnswers answers ∧ r.parityErr = false ∧ r.protocolErr = false := by
  unfold mergedReply at h
  split at h
  · cases h
  next hm => cases h; exact ⟨hm.symm, rfl, rfl⟩

/-- One symbol of the merge of two answers. -/
theorem mergeSyms_getElem? (ys zs : List Sym) (k : Nat) :
    (mergeSyms ys zs)[k]? = match ys[k]?, zs[k]? with
      | some y, some z => some (if y = z then y else .x)
      | _, _ => none := by
  induction ys generalizing zs k with
  | nil => simp [mergeSyms]
  | cons y ys ih =>
    cases zs with
    | nil => cases (y :: ys)[k]? <;> simp [mergeSyms]
    | cons z zs => cases k <;> simp [mergeSyms, ih]

/-! ### The budgets (rules R12, R13, R80) -/

theorem waitBudget_pos (n : Nat) : 1 ≤ Config.waitBudget n := by
  induction n with
  | zero => exact Nat.le_add_left 1 _
  | succ n ih => exact Nat.le_trans ih (Nat.le_add_right _ _)

theorem waitBudget_le_succ (n : Nat) : Config.waitBudget n ≤ Config.waitBudget (n + 1) := Nat.le_add_right _ _

/-! ### Every operation completes -/

/-- No meaning ends in a fault or a refusal of the interface: `refuse` is a next state. -/
theorem exec_total (i : Instr) (s : State) : ∃ t : State, exec i s = .next t := by
  cases i <;> exact ⟨_, rfl⟩

end Sys2Proof.Machine
end

