-- ==== Sys2Proof/Laws/Memory.lean ====
section
/-! SUPPORT. The laws of the bytes stored by address: a read after a write, and the canonical form. -/

namespace Sys2Proof.Machine

open Sys2Proof

/-- A read after a write of the same address gives the byte written. -/
@[simp] theorem memRead_memWrite_same (m : Memory) (a : Nat) (v : Byte) : memRead (memWrite m a v) a = some v := by
  induction m with
  | nil => simp [memWrite, memRead]
  | cons c m ih =>
    obtain ⟨b, w⟩ := c
    simp only [memWrite]
    split
    · simp [memRead]
    · split
      · simp [memRead]
      · have hb : b ≠ a := fun h => by omega
        simp [memRead, hb, ih]

/-- A write leaves every other address as it was. -/
theorem memRead_memWrite_other (m : Memory) {a n : Nat} (v : Byte) (h : n ≠ a) :
    memRead (memWrite m a v) n = memRead m n := by
  induction m with
  | nil => simp [memWrite, memRead, h.symm]
  | cons c m ih =>
    obtain ⟨b, w⟩ := c
    simp only [memWrite]
    split
    · simp [memRead, h.symm]
    · split
      · rename_i hb
        simp [memRead, h.symm, ← hb]
      · simp only [memRead, ih]

/-- The canonical form, read at the head: every later address is above the first one. -/
theorem Memory.wf_cons (c : Host.Cell) (m : Memory) :
    Memory.wf (c :: m) = true ↔ (∀ d, m.head? = some d → c.1 < d.1) ∧ Memory.wf m = true := by
  cases m with
  | nil => simp [Memory.wf]
  | cons d m => simp [Memory.wf]

/-- The first address after a write is the address written or the first one before it. -/
theorem memWrite_head (m : Memory) (a : Nat) (v : Byte) (d : Host.Cell) (h : (memWrite m a v).head? = some d) :
    d.1 = a ∨ m.head? = some d := by
  cases m with
  | nil =>
    simp only [memWrite, List.head?_cons, Option.some.injEq] at h
    exact .inl (h ▸ rfl)
  | cons c m =>
    obtain ⟨b, w⟩ := c
    simp only [memWrite] at h
    split at h
    · simp only [List.head?_cons, Option.some.injEq] at h
      exact .inl (h ▸ rfl)
    · split at h
      · simp only [List.head?_cons, Option.some.injEq] at h
        exact .inl (h ▸ rfl)
      · exact .inr h

/-- A write keeps the canonical form. -/
theorem memWrite_wf (m : Memory) (a : Nat) (v : Byte) (h : m.wf = true) : (memWrite m a v).wf = true := by
  induction m with
  | nil => rfl
  | cons c m ih =>
    obtain ⟨b, w⟩ := c
    obtain ⟨hh, hw⟩ := (Memory.wf_cons _ _).1 h
    simp only [memWrite]
    split
    · rename_i hlt
      exact (Memory.wf_cons _ _).2 ⟨fun d hd => by simp only [List.head?_cons, Option.some.injEq] at hd; exact hd ▸ hlt, h⟩
    · split
      · rename_i heq
        exact (Memory.wf_cons _ _).2 ⟨fun d hd => heq ▸ hh d hd, hw⟩
      · refine (Memory.wf_cons _ _).2 ⟨fun d hd => ?_, ih hw⟩
        obtain h' | h' := memWrite_head m a v d hd
        · show b < d.1
          omega
        · exact hh d h'

end Sys2Proof.Machine
end

