-- ==== Sys2Proof/Laws/Run.lean ====
section
/-! SUPPORT. What a step of the machine can do, by the move it makes, said once. -/

namespace Sys2Proof.Machine

open Sys2Proof

/-- Taking the move changes nothing but the schedule and the draw counter. -/
theorem takeMove_frame (s : State) :
    (takeMove s).2 = { s with sched := s.sched.tail, draws := (takeMove s).2.draws } := by
  unfold takeMove
  split
  · simp_all
  · simp_all [bumpDraws]

theorem step_of_host {s : State} (hr : s.refused = none) (hm : nextMove s = .host) :
    step s = hostMove (takeMove s).2 := by
  unfold nextMove at hm
  unfold step
  rw [hr]
  dsimp only
  split <;> simp_all

theorem step_of_engine {s : State} {e : EngineStep} (hr : s.refused = none) (hm : nextMove s = .engine e) :
    step s = .next (engineStep e (takeMove s).2) := by
  unfold nextMove at hm
  unfold step
  rw [hr]
  dsimp only
  split <;> simp_all

theorem step_of_refused {s : State} {r : RefuseReason} (hr : s.refused = some r) :
    step s = .fault (.stuckAfterRefusal r) := by
  unfold step
  rw [hr]

/-- HOST without an operation left only lets the move pass. -/
theorem hostMove_of_done {s : State} (h : s.hostOps = []) : hostMove s = .next s := by
  unfold hostMove takeHostWord
  rw [h]

/-- A step that is not enabled changes nothing. -/
theorem engineStep_of_disabled {e : EngineStep} {s : State} (h : engineEnabled e s = false) : engineStep e s = s := by
  unfold engineStep
  rw [h]
  rfl

/-- Loading operations changes nothing else, and not whose move comes next. -/
@[simp] theorem loadOps_nil (s : State) : s.loadOps [] = s := by simp [State.loadOps]
@[simp] theorem loadOps_hostOps (ws : List HostWord) (s : State) : (s.loadOps ws).hostOps = s.hostOps ++ ws := rfl
@[simp] theorem loadOps_refused (ws : List HostWord) (s : State) : (s.loadOps ws).refused = s.refused := rfl
@[simp] theorem nextMove_loadOps (ws : List HostWord) (s : State) : nextMove (s.loadOps ws) = nextMove s := by
  cases s with | mk => rename_i sched _ _ _; cases sched <;> rfl

@[simp] theorem engineEnabled_loadOps (e : EngineStep) (ws : List HostWord) (s : State) :
    engineEnabled e (s.loadOps ws) = engineEnabled e s := by cases e <;> rfl

/-- No state of a run without end is marked refused. -/
theorem IsRun.not_refused {load : Nat → List HostWord} {σ : Nat → State} (h : IsRun load σ) (n : Nat) :
    (σ n).refused = none := by
  cases hr : (σ n).refused with
  | none => rfl
  | some r => exact nomatch (step_of_refused (s := (σ n).loadOps (load n)) hr).symm.trans (h n)

/-- The next state of a run, by the move that is made. -/
theorem IsRun.next_of_engine {load : Nat → List HostWord} {σ : Nat → State} (h : IsRun load σ) {n : Nat} {e : EngineStep}
    (hm : nextMove (σ n) = .engine e) : σ (n + 1) = engineStep e (takeMove ((σ n).loadOps (load n))).2 := by
  have hn := (step_of_engine (s := (σ n).loadOps (load n)) (h.not_refused n) ((nextMove_loadOps _ _).trans hm)).symm.trans
    (h n)
  injection hn with hn
  exact hn.symm

end Sys2Proof.Machine
end

