-- ==== Sys2Proof/Tests/Slice0.lean ====
section
/-! SUPPORT. Tests: the WellFormed smoke test, decoding from words written out from the spec, single steps held against
the vectors of spec/95_test_vectors.md, and a witness for the hypotheses of every obligation that has some. -/

namespace Sys2Proof.Tests

open Sys2Proof Sys2Proof.Machine

/-! ### Small states -/

/-- The chip after a hard reset and its wake-up, with the two drawn registers at a value. -/
def awake : State := { State.reset with pdBusy := false, collPos := 0, tCounter := 0 }

/-- START of spec/95: the registers of table V-RESET-6 after `reset()`. -/
def start : State :=
  { awake with
    tMode := 0x80, tPrescaler := 0x0A9, tReload := 0x03E8, txASK := 0x40, mode := 0x3D, txControl := 0x83 }

/-- Transceive waiting to send `bs`, with a request made. -/
def sending (bs : List Byte) : State :=
  { start with cmd := .transceive, modem := .waitStart, txReq := true, rcvOff := false, fifo := bs }

/-- Transceive with the reply `r` pending. -/
def receiving (r : Reply) : State :=
  { start with cmd := .transceive, modem := .waitData, rcvOff := false, pendingResp := some r }

/-- A reply of error-free symbols. -/
def reply (y : Sys2Proof.Sym) (ys : List Sys2Proof.Sym) : Reply := ⟨y, ys, false, false⟩

/-- The next state's `f`, if the outcome is a next state. -/
def after {α : Type} (o : Host.Outcome State Fault Refusal) (f : State → α) : Option α :=
  match o with
  | .next t => some (f t)
  | .fault _ => none
  | .refused _ => none

/-- Decoding as an Option, which can be compared. -/
def decoded (w : HostWord) : Option Instr :=
  match decode w with
  | .ok i => some i
  | .error _ => none

/-! ### WellFormed: one ill-formed term for each check -/

theorem test_wellFormed_refuses_rd_of_fifo : (Instr.rd 0x09).wellFormed = false := by decide
theorem test_wellFormed_refuses_wr_of_command : (Instr.wr 0x01 0x00).wellFormed = false := by decide
theorem test_wellFormed_refuses_wr_of_comIrq : (Instr.wr 0x04 0x00).wellFormed = false := by decide
theorem test_wellFormed_refuses_wr_of_divIrq : (Instr.wr 0x05 0x80).wellFormed = false := by decide
theorem test_wellFormed_refuses_wr_of_fifoData : (Instr.wr 0x09 0x12).wellFormed = false := by decide
theorem test_wellFormed_refuses_wr_with_flush : (Instr.wr 0x0A 0x80).wellFormed = false := by decide
theorem test_wellFormed_refuses_wr_with_timer_stop : (Instr.wr 0x0C 0x80).wellFormed = false := by decide
theorem test_wellFormed_refuses_wr_with_timer_start : (Instr.wr 0x0C 0x40).wellFormed = false := by decide
theorem test_wellFormed_refuses_wr_with_startSend : (Instr.wr 0x0D 0x87).wellFormed = false := by decide
theorem test_wellFormed_takes_the_plain_forms :
    (Instr.wr 0x0A 0x7F).wellFormed = true ∧ (Instr.wr 0x0C 0x3F).wellFormed = true ∧
      (Instr.wr 0x0D 0x7F).wellFormed = true ∧ (Instr.rd 0x3F).wellFormed = true := by decide

/-! ### Decoding: the words of spec/95 section 2.5, and one written out for every constructor -/

theorem test_decode_bus_rows :
    decoded (.bus 0b0_00001101_00000000) = some (.rd 0x0D) ∧
    decoded (.bus 0b1_00001101_00000111) = some (.wr 0x0D 0x07) ∧
    decoded (.bus 0b0_11000000_00000000) = some (.badAddr false 0x40 0x00) ∧
    decoded (.bus 0b1_01000000_00000000) = some (.badAddr6 true 0x00 0x00) ∧
    decoded (.bus 0b1_00001001_01010010) = some (.fifoPush 0x52) ∧
    decoded (.bus 0b0_00001001_00000000) = some .fifoPop := by decide

theorem test_decode_commands :
    decoded (.bus 0b1_00000001_00000000) = some (.idle false) ∧
    decoded (.bus 0b1_00000001_00000001) = some (.mem false) ∧
    decoded (.bus 0b1_00000001_00000010) = some (.genRandId false) ∧
    decoded (.bus 0b1_00000001_00000011) = some (.calcCrc false) ∧
    decoded (.bus 0b1_00000001_00000100) = some (.transmit false) ∧
    decoded (.bus 0b1_00000001_00000111) = some (.noCmdChange false) ∧
    decoded (.bus 0b1_00000001_00001000) = some (.receive false) ∧
    decoded (.bus 0b1_00000001_00101100) = some (.transceive true) ∧
    decoded (.bus 0b1_00000001_00001110) = some (.mfAuthent false) ∧
    decoded (.bus 0b1_00000001_00001111) = some (.softReset false) ∧
    decoded (.bus 0b1_00000001_00010011) = some (.powerDown false 3) := by decide

theorem test_decode_reserved_commands :
    decoded (.bus 0b1_00000001_00000101) = some (.reserved5 false) ∧
    decoded (.bus 0b1_00000001_00100110) = some (.reserved6 true) ∧
    decoded (.bus 0b1_00000001_00001001) = some (.reserved9 false) ∧
    decoded (.bus 0b1_00000001_00001010) = some (.reservedA false) ∧
    decoded (.bus 0b1_00000001_00001011) = some (.reservedB false) ∧
    decoded (.bus 0b1_00000001_00001101) = some (.reservedD false) := by decide

/-- Bits 7:6 of a command byte are ignored (rule R144). -/
theorem test_decode_ignores_the_top_bits_of_a_command :
    decoded (.bus 0b1_00000001_11001100) = some (.transceive false) := by decide

theorem test_decode_flag_and_strobe_rows :
    decoded (.bus 0b1_00000100_10000001) = some (.irqSet 0x01) ∧
    decoded (.bus 0b1_00000100_01111111) = some (.irqClear 0x7F) ∧
    decoded (.bus 0b1_00000101_10010100) = some (.divIrqSet 0x14) ∧
    decoded (.bus 0b1_00000101_00000100) = some (.divIrqClear 0x04) ∧
    decoded (.bus 0b1_00001010_10000000) = some (.flushBuffer 0x00) ∧
    decoded (.bus 0b1_00001100_11000000) = some (.tStopNow 0x40) ∧
    decoded (.bus 0b1_00001100_01000000) = some (.tStartNow 0x00) ∧
    decoded (.bus 0b1_00001101_11010111) = some (.startSend 5 7) := by decide

theorem test_decode_pin_rows :
    decoded (.pin 0b00) = some .assertReset ∧ decoded (.pin 0b01) = some .releaseReset ∧
      decoded (.pin 0b10) = some .irqPin ∧ decoded (.pin 0b11) = none := by decide

/-- The host's entry to the decoder, and bytes that are no word. -/
theorem test_decodeTableWord :
    decodeTableWord 24 0x10D87 = some (.startSend 0 7) ∧ decodeTableWord 8 1 = some .releaseReset ∧
      decodeTableWord 8 3 = none ∧ (match decodeBytes [0, 0] with | .error .badLength => true | _ => false) = true := by
  decide

/-- The encoder and the decoder agree at the ends of the operands' ranges. -/
theorem test_encode_then_decode :
    decoded (encode (.startSend 7 7)) = some (.startSend 7 7) ∧
      decoded (encode (.powerDown true 15)) = some (.powerDown true 15) ∧
      decoded (encode (.tStartNow 0x3F)) = some (.tStartNow 0x3F) ∧
      decoded (encode (.badAddr false 0x7F 0xFF)) = some (.badAddr false 0x7F 0xFF) := by decide

/-! ### The CRC function and the CRC engine: V-CRC and V-CALC -/

theorem test_crc_empty : crcA 0x6363 [] = 0x6363 := by decide
theorem test_crc_of_halt : crcA 0x6363 [0x50, 0x00] = 0xCD57 := by decide +kernel
theorem test_crc_of_select : crcA 0x6363 [0x93, 0x70, 0x04, 0xA1, 0xB2, 0xC3, 0xD4] = 0x059B := by decide +kernel
theorem test_crc_check_values :
    crcA 0x0000 [0x50, 0x00] = 0xD3F7 ∧ crcA 0xA671 [0x50, 0x00] = 0xFAD7 ∧ crcA 0xFFFF [0x50, 0x00] = 0x234F := by
  decide +kernel
theorem test_crc_bytewise : crcAStepBytewise 0x6363 0x50 = 0x037B := by decide +kernel

/-- V-CALC-1. -/
theorem test_calcCrc_starts :
    after (exec (.calcCrc false) { start with fifo := [0x50, 0x00] }) (fun t => (t.cmd, t.crc, t.crcReady))
      = some (.calcCrc, 0x6363, false) := by decide
/-- V-CALC-9. -/
theorem test_calcCrc_refuses_msbFirst :
    after (exec (.calcCrc false) { start with mode := 0xBD }) (·.refused) = some (some .crcWithMsbFirst) := by decide
/-- V-CALC-2. -/
theorem test_crcByte :
    (engineStep .crcByte { start with cmd := .calcCrc, crc := 0x6363, crcReady := false, fifo := [0x50, 0x00] }).crc
      = 0x037B := by decide +kernel
/-- V-CALC-3. -/
theorem test_crcDone :
    let t := engineStep .crcDone { start with cmd := .calcCrc, crc := 0xCD57, crcReady := false }
    (t.crcResult, t.crcReady, t.crcIrq, t.cmd) = (0xCD57, true, true, .calcCrc) := by decide
/-- V-CALC-8: CRCOk. -/
theorem test_status1_shows_crcOk :
    status1Byte { start with cmd := .calcCrc, crc := 0 } = 0x61 := by decide

/-! ### Registers: V-REG -/

/-- V-REG-40: VersionReg has no drawn bit. -/
theorem test_rd_of_version :
    after (exec (.rd 0x37) start) (·.busOut) = some (drawBitsIn 0x00 (Config.freeBits 8 2) Config.versionByte) := rfl
/-- V-REG-32: Status1Reg at START. -/
theorem test_status1_at_start : status1Byte start = 0x21 := by decide
/-- V-REG-37. -/
theorem test_wr_of_tReload :
    after (exec (.wr 0x2D 0x34) { start with tReload := 0x1200 }) (·.tReload) = some 0x1234 := by decide
/-- V-REG-38. -/
theorem test_wr_of_tMode_carries_the_prescaler :
    after (exec (.wr 0x2A 0x8D) { start with tPrescaler := 0x0FF }) (fun t => (t.tMode, t.tPrescaler))
      = some (0x8D, 0xDFF) := by decide
/-- V-REG-34. -/
theorem test_wr_of_waterLevel : after (exec (.wr 0x0B 0xFF) start) (·.waterLevel) = some 0x3F := by decide
/-- V-REG-3. -/
theorem test_badAddr : after (exec (.badAddr true 0 0) start) (·.refused) = some (some .addressOutOfRange) := by decide
theorem test_badAddr6 : after (exec (.badAddr6 false 0 0) start) (·.refused) = some (some .addressOutOfRange) := by
  decide
/-- V-REG-4 and V-REG-5. -/
theorem test_irqClear : after (exec (.irqClear 0x7F) { start with comIrq := 0x31 }) (·.comIrq) = some 0x00 := by decide
theorem test_irqSet : after (exec (.irqSet 0x01) { start with comIrq := 0x00 }) (·.comIrq) = some 0x01 := by decide
/-- V-REG-8. -/
theorem test_divIrqSet :
    after (exec (.divIrqSet 0x14) start) (fun t => (t.mfinActIrq, t.crcIrq)) = some (true, true) := by decide
theorem test_divIrqClear :
    after (exec (.divIrqClear 0x10) { start with mfinActIrq := true, crcIrq := true })
      (fun t => (t.mfinActIrq, t.crcIrq)) = some (false, true) := by decide
/-- V-REG-9: HiAlert rises at the 56th push. -/
theorem test_fifoPush_raises_hiAlert :
    after (exec (.fifoPush 0x00) { start with fifo := List.replicate 55 0x00, comIrq := 0x00 }) (·.comIrq)
      = some 0x08 := by decide
/-- V-REG-10. -/
theorem test_fifoPush_overflow :
    after (exec (.fifoPush 0x11) { start with fifo := List.replicate 64 0x00, comIrq := 0x08 })
      (fun t => (t.fifo.length, t.err, t.comIrq)) = some (64, 0x10, 0x0A) := by decide
/-- V-REG-11. -/
theorem test_flushBuffer :
    after (exec (.flushBuffer 0) { start with fifo := List.replicate 64 0x00, comIrq := 0x0A, err := 0x10 })
      (fun t => (t.fifo, t.err, t.comIrq)) = some ([], 0x00, 0x0E) := by decide
/-- V-REG-13. -/
theorem test_fifoPop :
    after (exec .fifoPop { start with fifo := [0x04, 0x00] }) (fun t => (t.busOut, t.fifo)) = some (0x04, [0x00]) := by
  decide
/-- V-REG-14 and V-REG-15. -/
theorem test_reserved_command :
    after (exec (.reservedD false) start) (·.refused) = some (some .reservedCommand) := by decide
theorem test_mfAuthent :
    after (exec (.mfAuthent false) start) (·.refused) = some (some .commandOutsideTheBlock) := by decide
/-- V-REG-16 and V-REG-17. -/
theorem test_powerDown_refuses_transceive :
    after (exec (.powerDown false 0xC) start) (·.refused) = some (some .commandWithPowerDown) := by decide
theorem test_powerDown :
    after (exec (.powerDown false 0) start) (fun t => (t.powerDown, t.rcvOff, t.cmd, t.txControl))
      = some (true, false, .idle, 0x83) := by decide
/-- V-REG-19: the wake-up. -/
theorem test_idle_wakes_up :
    after (exec (.idle false) { start with powerDown := true }) (fun t => (t.powerDown, t.pdBusy))
      = some (false, true) := by decide
/-- V-REG-21. -/
theorem test_noCmdChange :
    after (exec (.noCmdChange true) { start with cmd := .transceive, modem := .waitStart, rcvOff := false })
      (fun t => (t.cmd, t.rcvOff)) = some (.transceive, true) := by decide
/-- V-REG-36: the write of CommandReg, and what it shows then. -/
theorem test_softReset :
    after (exec (.softReset false) start) (fun t => (t.cmd, t.pdBusy, shownByte t 0x01 0 .command))
      = some (.softReset, true, 0x1F) := by decide
/-- V-REG-28 and V-REG-31. -/
theorem test_irqPin :
    after (exec .irqPin { start with comIEn := 0xA0, comIrq := 0x20 }) (fun t => (t.pinOut, irqPinLevel t))
      = some (true, false) := by decide
theorem test_irqPin_of_crc :
    after (exec .irqPin { start with divIEn := 0x04, crcIrq := true }) (·.pinOut) = some true := by decide

/-! ### The bit-framer: V-FRAME, V-RX, V-COLL -/

/-- V-FRAME-2 and V-FRAME-5. -/
theorem test_assemble_short_frame :
    assemble [0x52] 7 = [false, true, false, false, true, false, true] := by decide
theorem test_assemble_partial_last_byte :
    assemble [0x93, 0x21, 0x01] 1 =
      [true, true, false, false, true, false, false, true, true, false, false, false, false, true, false, false,
        true] := by decide
/-- V-FRAME-14 and V-FRAME-15: StartSend before the command, and during the wait. -/
theorem test_startSend_before_transceive :
    after (exec (.startSend 0 7) start) (fun t => (t.txReq, t.startSend)) = some (false, true) := by decide
theorem test_startSend :
    after (exec (.startSend 0 7) { sending [0x52] with txReq := false }) (fun t => (t.txReq, t.txLastBits))
      = some (true, 7) := by decide
theorem test_transceive :
    after (exec (.transceive false) { start with fifo := [0x52] }) (fun t => (t.cmd, t.modem, t.txReq, t.fifo))
      = some (.transceive, .waitStart, false, [0x52]) := by decide
/-- V-FRAME-8, V-FRAME-9 and V-TMR-7. -/
theorem test_tx_refusals :
    (engineStep .tx (sending [])).refused = some .transmitWithEmptyFifo ∧
      (engineStep .tx { sending [0x52] with txMode := 0x80 }).refused = some .radioConfigurationOutsideTheModel ∧
      (engineStep .tx { sending [0x52] with tMode := 0xA0 }).refused = some .radioConfigurationOutsideTheModel := by
  decide
/-- V-EXC-3 and V-TMR-1. -/
theorem test_tx :
    let t := engineStep .tx { sending [0x52] with err := 0x9B, field := [none] }
    (t.err, t.modem, t.txReq, t.fifo, t.tRunning, t.tCounter) = (0x90, .waitData, false, [], true, 0x03E8) := by
  decide
/-- V-RX-4 and V-TRX-16. -/
theorem test_rx_whole_bytes :
    (engineStep .rx (receiving
      (reply .zero [.zero, .one, .zero, .zero, .zero, .one, .zero, .zero, .zero, .zero, .zero, .zero, .zero, .zero,
        .zero]))).fifo = [0x44, 0x00] := by decide
theorem test_rx_of_four_bits_stops_the_timer :
    let t := engineStep .rx { receiving (reply .zero [.one, .zero, .one]) with tRunning := true }
    (t.tRunning, t.rxLastBits, t.modem, t.comIrq) = (false, 4, .waitStart, 0x34) := by decide
/-- V-RX-2 and V-RX-3, with every free bit 0. -/
theorem test_pack_with_rxAlign :
    pack (fun _ => false) 3 [true, true, true, true, true] = [0xF8] ∧
      pack (fun _ => false) 7 [true, true] = [0x80, 0x01] := by decide
/-- V-RX-8. -/
theorem test_rx_collision :
    let t := engineStep .rx { receiving (reply .one [.one, .x, .one, .zero, .one, .one, .one]) with
      valuesAfterColl := false }
    (t.fifo, t.err, t.collPos, t.collPosNotValid) = ([0x03], 0x08, 3, false) := by decide
/-- V-COLL-2, V-COLL-4, V-COLL-5. -/
theorem test_collision_positions :
    (collision (some 3) { start with rxAlign := 1 }).collPos = 4 ∧
      ((collision (some 32) start).collPos, (collision (some 32) start).collPosNotValid) = (0, false) ∧
      (collision (some 32) { start with rxAlign := 1 }).collPosNotValid = true := by decide

/-- The examples of rule R156. -/
theorem test_hostCollisionPosition :
    hostCollisionPosition 0x01 0x08 = some 1 ∧ hostCollisionPosition 0x80 0x08 = some 32 ∧
      hostCollisionPosition 0xA0 0x08 = none ∧ hostCollisionPosition 0x01 0x00 = none := by decide

/-- Program P4: cards A and B answer the anticollision, "40 symbols, X at 1 and 33", and the answers hold no error mark. -/
theorem test_mergedReply :
    (mergedReply [[0x04, 0xA1, 0xB2, 0xC3, 0xD4].flatMap (bitsLSB · 8),
        [0x05, 0xA1, 0xB2, 0xC3, 0xD5].flatMap (bitsLSB · 8)]).map
        (fun r => (r.syms.length, (List.range 40).filter fun k => r.syms[k]? == some .x, r.parityErr || r.protocolErr)) =
      some (40, [0, 32], false) ∧
    mergedReply [[true, false]] = some (reply .one [.zero]) ∧ mergedReply [] = none := by decide

/-! ### Flags, timer and resets: V-EXC, V-TMR, V-RESET -/

/-- V-EXC-1. -/
theorem test_idle_clears_errors :
    after (exec (.idle false) { start with err := 0x4A, comIrq := 0x02 }) (fun t => (t.err, t.comIrq))
      = some (0x40, 0x02) := by decide
/-- V-EXC-4. -/
theorem test_overheat :
    let t := engineStep .overheat (receiving (reply .one []))
    (t.err, t.comIrq &&& 0x02, t.txControl, t.pendingResp) = (0x40, 0x02, 0x80, none) := by decide
/-- V-TMR-5 and V-TMR-6. -/
theorem test_tStartNow :
    after (exec (.tStartNow 0) start) (fun t => (t.tRunning, t.tCounter)) = some (true, 0x03E8) := by decide
theorem test_tStartNow_gated :
    after (exec (.tStartNow 0) { start with tMode := 0x20 }) (·.refused) = some (some .timerGated) := by decide
/-- V-TMR-4. -/
theorem test_tStopNow :
    after (exec (.tStopNow 0x40) { start with tRunning := true }) (·.tRunning) = some false := by decide
/-- V-TMR-2 and V-TMR-3. -/
theorem test_timerExpire :
    let t := engineStep .timerExpire { start with tRunning := true, comIrq := 0x40 }
    (t.comIrq, t.tRunning, t.tCounter) = (0x41, false, 0) := by decide
theorem test_timerExpire_restarts :
    (engineStep .timerExpire { start with tMode := 0x90, tRunning := true }).tRunning = true := by decide
/-- V-RESET-1 and V-RESET-2. -/
theorem test_bus_access_in_hard_power_down :
    after (exec (.rd 0x01) { start with nrst := false }) (·.refused) = some (some .busAccessInHardPowerDown) := by
  decide
/-- V-RESET-3: CommandReg shows 0x30 after the release. -/
theorem test_releaseReset :
    after (exec .releaseReset { start with nrst := false }) (fun t => (t.nrst, shownByte t 0x01 0 .command, t.mode))
      = some (true, 0x30, 0x3F) := by decide
theorem test_assertReset :
    after (exec .assertReset (receiving (reply .one []))) (fun t => (t.nrst, t.cmd, t.pendingResp))
      = some (false, .idle, none) := by decide
/-- The end of a SoftReset: IdleIRq is set (rule R221). -/
theorem test_resetDone :
    let t := engineStep .resetDone { start with cmd := .softReset, pdBusy := true }
    (t.cmd, t.pdBusy, t.comIrq, t.mode, t.txControl) = (.idle, false, 0x14, 0x3F, 0x80) := by decide
/-- V-RESET-10. -/
theorem test_reset_keeps_the_refusal :
    (engineStep .resetDone { start with cmd := .softReset, pdBusy := true, refused := some .timerGated }).refused
      = some .timerGated := by decide
/-- The first instruction after reset: the host's entry puts it where the next step takes it. -/
theorem test_withFetchWord_runs_first :
    after (step (State.reset.withFetchWord 8 0)) (·.nrst) = some false := by decide

/-! ### Witnesses: for each obligation with hypotheses, states and operands that meet them together, clause by clause -/

/-- The chip in soft power-down, woken up or not. -/
def asleep : State := { start with powerDown := true }

theorem chipInv_awake : ChipInv awake where
  fifo_fits := by decide
  prescaler_hi := by decide
  modem_phase := by decide
  request_waits := by decide
  reply_waits := by decide
  softReset_busy := by decide
  powerDown_not_busy := by decide
  no_crcErr := by decide
  divIEn_reserved := by decide
  other_wf := by decide

theorem busReady_start : BusReady start := ⟨rfl, rfl⟩
theorem busReady_asleep : BusReady asleep := ⟨rfl, rfl⟩
theorem commandReady_start : CommandReady start := ⟨⟨rfl, rfl⟩, rfl⟩
theorem engineReady_start : EngineReady start := ⟨rfl, rfl, rfl⟩

theorem witness_DecodeEncodeRoundTrip :
    (Instr.wr 0x0D 0x7F).wellFormed = true ∧ (Instr.rd 0x08).wellFormed = true := by decide

theorem witness_StepRunsTheDecodedOperation :
    ∃ (s : State) (w : HostWord) (ops : List HostWord) (moves : List Move) (i : Instr),
      s.refused = none ∧ s.sched = .host :: moves ∧ s.hostOps = w :: ops ∧ decode w = .ok i :=
  ⟨{ start with sched := [.host], hostOps := [.bus 0x1113D] }, .bus 0x1113D, [], [], .wr 0x11 0x3D, rfl, rfl, rfl, rfl⟩

theorem witness_StepMakesTheNamedMove :
    (∃ (s : State) (e : EngineStep) (moves : List Move), s.refused = none ∧ s.sched = .engine e :: moves) ∧
    (∃ (s : State) (moves : List Move), s.refused = none ∧ s.sched = .host :: moves ∧ s.hostOps = []) ∧
    (∃ (s : State) (w : HostWord) (ops : List HostWord) (moves : List Move), s.refused = none ∧
      s.sched = .host :: moves ∧ s.hostOps = w :: ops ∧ decode w = .error .unusedPinCode) ∧
    (∃ s : State, s.refused = none ∧ s.sched = []) :=
  ⟨⟨{ start with sched := [.engine .overheat] }, .overheat, [], rfl, rfl⟩,
   ⟨{ start with sched := [.host] }, [], rfl, rfl, rfl⟩,
   ⟨{ start with sched := [.host], hostOps := [.pin 3] }, .pin 3, [], [], rfl, rfl, rfl, rfl⟩,
   ⟨start, rfl, rfl⟩⟩

theorem witness_RefusalMarksTheRunForGood :
    (∃ s : State, s.refused = none) ∧ ∃ (s : State) (r : RefuseReason), s.refused = some r :=
  ⟨⟨start, rfl⟩, { start with refused := some .timerGated }, .timerGated, rfl⟩

theorem witness_StepKeepsTheInvariant :
    ∃ s s' : State, ChipInv s ∧ step s = .next s' :=
  ⟨{ awake with sched := [.host], hostOps := [.bus 0x10952] }, _,
    ⟨by decide, by decide, by decide, by decide, by decide, by decide, by decide, by decide, by decide, by decide⟩, rfl⟩

theorem witness_ReadsHaveNoSideEffect : start.nrst = true ∧ (0x0A : RegAddr) ≠ 0x09 ∧ (0x08 : RegAddr) ≠ 0x09 := by
  decide

/-- Its last premise on the FIFO's length stands at its boundary, a full FIFO. -/
theorem witness_ReadsOfRegisters :
    ∃ s : State, BusReady s ∧ s.fifo.length = 64 := ⟨{ start with fifo := List.replicate 64 0 }, ⟨rfl, rfl⟩, rfl⟩

theorem witness_ReadsOfFreeValues :
    (∃ s : State, BusReady s ∧ ¬(s.cmd = .calcCrc ∧ s.crcReady = false)) ∧
    (∃ s : State, BusReady s ∧ s.tRunning = false) ∧
    (∃ s : State, BusReady s ∧ memRead s.other (0x16 : RegAddr).toNat = some 0x10 ∧
      memRead s.other (0x3A : RegAddr).toNat = some 0x21) ∧
    (∃ s : State, BusReady s ∧ s.cmd = .calcCrc ∧ s.crcReady = false) ∧
    (∃ s : State, BusReady s ∧ s.tRunning = true) ∧
    (∃ s : State, BusReady s ∧ memRead s.other (0x16 : RegAddr).toNat = none ∧
      memRead s.other (0x3A : RegAddr).toNat = none) :=
  ⟨⟨{ start with cmd := .calcCrc }, ⟨rfl, rfl⟩, by decide⟩, ⟨start, busReady_start, rfl⟩,
   ⟨{ start with other := [(0x16, 0x10), (0x3A, 0x21)] }, ⟨rfl, rfl⟩, rfl, rfl⟩,
   ⟨{ start with cmd := .calcCrc, crcReady := false }, ⟨rfl, rfl⟩, rfl, rfl⟩,
   ⟨{ start with tRunning := true }, ⟨rfl, rfl⟩, rfl⟩, ⟨start, busReady_start, rfl, rfl⟩⟩

theorem witness_ReadsWhileBusy :
    State.reset.nrst = true ∧ State.reset.pdBusy = true ∧ (0x00 : RegAddr) ≠ 0x01 ∧ (0x02 : RegAddr) ≠ 0x01 := by
  decide

theorem witness_WritesOfPlainRegisters : ∃ s : State, BusReady s := ⟨start, busReady_start⟩

/-- A pending reply to lose, and a level at which the low alert rises. -/
theorem witness_WritesOfTxControlAndWaterLevelActAtOnce :
    (∃ s : State, BusReady s ∧ s.pendingResp ≠ none ∧ (0x83 : Byte) &&& 0x03 = 0x03 ∧ (0x82 : Byte) &&& 0x03 ≠ 0x03) ∧
    ∃ s : State, BusReady s ∧ alertRise s s.fifo 0x09 = 0x04 :=
  ⟨⟨receiving (reply .one []), ⟨rfl, rfl⟩, by decide, by decide, by decide⟩,
   { start with fifo := List.replicate 9 0 }, ⟨rfl, rfl⟩, by decide⟩

theorem witness_RegistersOutsideTheBlockHoldTheirByte :
    ∃ (a n : RegAddr) (s : State), BusReady s ∧ a = 0x3A ∧ n.toNat ≠ a.toNat ∧ s.other.wf = true :=
  ⟨0x3A, 0x39, { start with other := [(0x16, 1), (0x39, 2)] }, ⟨rfl, rfl⟩, rfl, by decide, by decide⟩

theorem witness_WritesThatChangeNothing :
    ∃ s : State, BusReady s ∧ (0x06 : RegAddr) ∈ ([0x06, 0x07, 0x21, 0x22, 0x2E, 0x2F, 0x35, 0x37, 0x3B] : List RegAddr) ∧
      (0x7F : Byte).getLsbD 7 = false ∧ (0x3F : Byte).getLsbD 7 = false ∧ (0x3F : Byte).getLsbD 6 = false :=
  ⟨start, busReady_start, by decide, by decide, by decide, by decide⟩

theorem witness_WritesAreIgnoredWhileBusy :
    isBusWrite (.fifoPush 0x12) = true ∧ isBusWrite (.wr 0x3F 0x00) = true ∧ State.reset.nrst = true ∧
      State.reset.pdBusy = true := by decide

theorem witness_HardPowerDownRefusesEveryAccess :
    ∃ s : State, s.nrst = false ∧ Instr.irqPin ≠ .assertReset ∧ Instr.irqPin ≠ .releaseReset :=
  ⟨{ start with nrst := false }, rfl, by decide, by decide⟩

theorem witness_AddressesOutOfRangeAreRefused : State.reset.nrst = true := rfl

theorem witness_FlagWritesSetOrClear : ∃ s : State, BusReady s := ⟨start, busReady_start⟩
theorem witness_IrqPinAnswersTheEnabledFlags : start.nrst = true := rfl

theorem witness_RequestFlagsAreSticky :
    EngineStep.tx ≠ .resetDone ∧
    ∃ s t : State, exec (.divIrqClear 0x7F) s = .next t ∧ Instr.divIrqClear 0x7F ≠ .releaseReset ∧
      (∀ m, Instr.divIrqClear 0x7F ≠ .irqClear m) ∧
      (∀ d : Byte, d.getLsbD 7 = false → Instr.divIrqClear 0x7F ≠ .wr 0x04 d) ∧
      ∃ t' : State, exec (.irqClear 0x7F) s = .next t' ∧ (∀ m, Instr.irqClear 0x7F ≠ .divIrqClear m) ∧
        (∀ d : Byte, d.getLsbD 7 = false → Instr.irqClear 0x7F ≠ .wr 0x05 d) ∧
        s.crcIrq = true ∧ s.mfinActIrq = true :=
  ⟨by decide, { start with crcIrq := true, mfinActIrq := true }, _, rfl, by simp, by simp, by simp, _, rfl, by simp,
    by simp, rfl, rfl⟩

/-- A write that is none of the events, NoCmdChange, and Idle where the chip does not start it. -/
theorem witness_OnlyTheNamedEventsClearErrorFlags :
    EngineStep.rx ≠ .resetDone ∧ EngineStep.rx ≠ .tx ∧
    ∀ i ∈ [Instr.irqClear 0x02, .noCmdChange false, .idle false], ∃ s t : State, exec i s = .next t ∧
      i ≠ .releaseReset ∧ ¬(startsCommand i = true ∧ CommandReady s) ∧ (∀ x, i ≠ .flushBuffer x) ∧
      (∀ d : Byte, d.getLsbD 7 = true → i ≠ .wr 0x0A d) ∧ s.err = 0x5B := by
  refine ⟨by decide, by decide, fun i hi => ?_⟩
  obtain ⟨t, ht⟩ := exec_total i { asleep with err := 0x5B }
  refine ⟨_, t, ht, ?_⟩
  have hs : ¬CommandReady { asleep with err := 0x5B } := fun h => Bool.noConfusion h.awake
  simp only [List.mem_cons, List.not_mem_nil, or_false] at hi
  rcases hi with rfl | rfl | rfl <;> exact ⟨by simp, fun h => hs h.2, by simp, by simp, rfl⟩

/-- The two clauses at their boundary: the last byte that fits, and the first that does not. -/
theorem witness_FifoPushAppendsOrOverflows :
    (∃ s : State, BusReady s ∧ s.fifo.length = 63) ∧ ∃ s : State, BusReady s ∧ s.fifo.length = 64 :=
  ⟨⟨{ start with fifo := List.replicate 63 0 }, ⟨rfl, rfl⟩, rfl⟩,
   ⟨{ start with fifo := List.replicate 64 0 }, ⟨rfl, rfl⟩, rfl⟩⟩

theorem witness_FifoPopTakesTheOldest :
    (∃ (b : Byte) (bs : List Byte) (s : State), BusReady s ∧ s.fifo = b :: bs) ∧ ∃ s : State, BusReady s ∧ s.fifo = [] :=
  ⟨⟨0x44, [0x00], { start with fifo := [0x44, 0x00] }, ⟨rfl, rfl⟩, rfl⟩, ⟨start, busReady_start, rfl⟩⟩

theorem witness_FlushEmptiesTheFifo : ∃ s : State, BusReady s := ⟨start, busReady_start⟩

theorem witness_TimerStrobesStartAndStopTheTimer :
    (∃ s : State, BusReady s ∧ s.tMode &&& 0x60 = 0) ∧ ∃ s : State, BusReady s ∧ s.tMode &&& 0x60 ≠ 0 :=
  ⟨⟨{ start with tMode := 0x9F }, ⟨rfl, rfl⟩, by decide⟩, ⟨{ start with tMode := 0x20 }, ⟨rfl, rfl⟩, by decide⟩⟩

theorem witness_TimerExpires :
    (∃ s : State, EngineReady s ∧ s.tRunning = false) ∧ (∃ s : State, s.tRunning = true ∧ ¬EngineReady s) ∧
    (∃ s : State, EngineReady s ∧ s.tRunning = true ∧ s.tMode.getLsbD 4 = true) ∧
    ∃ s : State, EngineReady s ∧ s.tRunning = true ∧ s.tMode.getLsbD 4 = false :=
  ⟨⟨start, engineReady_start, rfl⟩,
   ⟨{ start with tRunning := true, pdBusy := true }, rfl, fun h => Bool.noConfusion h.settled⟩,
   ⟨{ start with tRunning := true, tMode := 0x90 }, ⟨rfl, rfl, rfl⟩, rfl, by decide⟩,
   ⟨{ start with tRunning := true }, ⟨rfl, rfl, rfl⟩, rfl, by decide⟩⟩

/-- The timer runs out, nothing else happens, and only the draw counter moves from then on. -/
def expiring : Nat → State
  | 0 => { start with tRunning := true, allowOverheat := false, sched := [.engine .timerExpire] }
  | n + 1 =>
    let t := engineStep .timerExpire { start with tRunning := true, allowOverheat := false }
    { t with draws := t.draws + n }

theorem witness_WeaklyFairRunsExpireTheTimer :
    IsRun (fun _ => []) expiring ∧ WeaklyFair expiring ∧ FairTo .timerExpire expiring ∧ EngineReady (expiring 0) ∧
      (expiring 0).tRunning = true ∧ (expiring 0).hostOps = [] := by
  have off : ∀ (e : EngineStep) (n : Nat), engineEnabled e (expiring (n + 1)) = false := fun e n => by cases e <;> rfl
  have fair : WeaklyFair expiring := fun e n h =>
    absurd (h (n + 1) (Nat.le_succ n)) (by rw [off e n]; decide)
  refine ⟨fun n => ?_, fair, fair _, ⟨rfl, rfl, rfl⟩, rfl, rfl⟩
  rw [loadOps_nil]
  cases n with
  | zero => rfl
  | succ n =>
    cases hm : nextMove (expiring (n + 1)) with
    | host => exact (step_of_host rfl hm).trans (hostMove_of_done rfl)
    | engine e => exact (step_of_engine rfl hm).trans (congrArg _ (engineStep_of_disabled (off e (n + 1))))

theorem witness_IdleStopsAndNoCmdChangeKeepsTheCommand : ∃ s : State, CommandReady s := ⟨start, commandReady_start⟩

theorem witness_CalcCrcStartsFromThePreset :
    (∃ (s : State) (p : Word16), CommandReady s ∧ s.mode.getLsbD 7 = false ∧ s.mode &&& 3 = 1 ∧ p = 0x6363) ∧
    (∃ (s : State) (p : Word16), CommandReady s ∧ s.mode.getLsbD 7 = false ∧ s.mode &&& 3 = 3 ∧ p = 0xFFFF) ∧
    ∃ s : State, CommandReady s ∧ s.mode.getLsbD 7 = true :=
  ⟨⟨start, 0x6363, commandReady_start, by decide, by decide, rfl⟩,
   ⟨{ start with mode := 0x3F }, 0xFFFF, ⟨⟨rfl, rfl⟩, rfl⟩, by decide, by decide, rfl⟩,
   ⟨{ start with mode := 0xBD }, ⟨⟨rfl, rfl⟩, rfl⟩, by decide⟩⟩

theorem witness_TransceiveAndSoftResetStart : ∃ s : State, CommandReady s := ⟨start, commandReady_start⟩
theorem witness_OtherCommandCodesAreRefused : ∃ s : State, CommandReady s := ⟨start, commandReady_start⟩

/-- The three clauses at neighbouring codes: 0, 1, 6, 7 and 8. -/
theorem witness_PowerDownEntry :
    ∃ s : State, CommandReady s ∧ ∀ c ∈ ([1, 6, 8] : List (BitVec 4)), c ≠ 0 ∧ c ≠ 7 :=
  ⟨receiving (reply .one []), ⟨⟨rfl, rfl⟩, rfl⟩, by decide⟩

theorem witness_CommandsInSoftPowerDown :
    ∃ s : State, BusReady s ∧ s.powerDown = true ∧ s.pendingResp = none ∧
      (∀ c ∈ ([0, 7] : List (BitVec 4)), c = 0 ∨ c = 7) ∧ ∀ c ∈ ([1, 6, 8] : List (BitVec 4)), c ≠ 0 ∧ c ≠ 7 :=
  ⟨asleep, busReady_asleep, rfl, rfl, by decide, by decide⟩

theorem witness_OnlyCommandsAndResetsChangeTheCommand :
    EngineStep.rx ≠ .resetDone ∧ ∃ s t : State, exec (.fifoPush 1) s = .next t ∧
      writesCommandReg (.fifoPush 1) = false ∧ Instr.fifoPush 1 ≠ .assertReset ∧ Instr.fifoPush 1 ≠ .releaseReset :=
  ⟨by decide, start, _, rfl, by decide, by decide, by decide⟩

theorem witness_CrcEngineSteps :
    (∃ (b : Byte) (bs : List Byte) (s : State), EngineReady s ∧ s.cmd = .calcCrc ∧ s.fifo = b :: bs) ∧
    (∃ s : State, s.cmd ≠ .calcCrc) ∧ (∃ s : State, s.cmd = .calcCrc ∧ s.fifo = []) ∧
    (∃ s : State, EngineReady s ∧ s.cmd = .calcCrc ∧ s.fifo = [] ∧ s.crcReady = false) ∧
    (∃ s : State, s.cmd = .calcCrc ∧ s.crcReady = true ∧ ¬EngineReady s) :=
  ⟨⟨0x50, [0x00], { start with cmd := .calcCrc, fifo := [0x50, 0x00] }, ⟨rfl, rfl, rfl⟩, rfl, rfl⟩,
   ⟨start, by decide⟩, ⟨{ start with cmd := .calcCrc }, rfl, rfl⟩,
   ⟨{ start with cmd := .calcCrc, crcReady := false }, ⟨rfl, rfl, rfl⟩, rfl, rfl, rfl⟩,
   ⟨{ asleep with cmd := .calcCrc }, rfl, rfl, fun h => Bool.noConfusion h.awake⟩⟩

theorem witness_CalcCrcComputesTheCrcOfTheFifo :
    ∃ s : State, CommandReady s ∧ s.mode.getLsbD 7 = false ∧ s.fifo = [0x50, 0x00] :=
  ⟨{ start with fifo := [0x50, 0x00] }, ⟨⟨rfl, rfl⟩, rfl⟩, by decide, rfl⟩

theorem witness_CrcResultIsStable :
    (∃ s t : State, exec (.calcCrc false) s = .next t ∧ Instr.calcCrc false ≠ .releaseReset) ∧
    EngineStep.crcByte ≠ .crcDone ∧ EngineStep.crcByte ≠ .resetDone ∧ EngineStep.crcDone ≠ .resetDone ∧
    start.cmd ≠ .calcCrc ∧ (CommandReady start ∧ ∃ t : State, exec (.idle false) start = .next t) :=
  ⟨⟨start, _, rfl, by decide⟩, by decide, by decide, by decide, by decide, commandReady_start, _, rfl⟩

theorem witness_StartSendMakesARequest :
    (∃ s : State, BusReady s ∧ s.cmd = .transceive ∧ s.modem = .waitStart ∧ s.powerDown = false) ∧
    (∃ s : State, BusReady s ∧ s.cmd ≠ .transceive) ∧ (∃ s : State, BusReady s ∧ s.modem = .waitData) ∧
    (∃ s : State, BusReady s ∧ s.powerDown = true) ∧ (0x7F : Byte).getLsbD 7 = false :=
  ⟨⟨sending [0x52], ⟨rfl, rfl⟩, rfl, rfl, rfl⟩, ⟨start, busReady_start, by decide⟩,
   ⟨receiving (reply .one []), ⟨rfl, rfl⟩, rfl⟩, ⟨asleep, busReady_asleep, rfl⟩, by decide⟩

/-- A partial last byte and a whole one. -/
theorem witness_FrameAssemblySendsTheFifoBits :
    ([0x52] : List Byte) ≠ [] ∧ (6 : Nat) < 8 * (1 - 1) + (if (7 : BitVec 3) = 0 then 8 else (7 : BitVec 3).toNat) ∧
      (7 : Nat) < 8 * (1 - 1) + (if (0 : BitVec 3) = 0 then 8 else (0 : BitVec 3).toNat) := by decide

theorem witness_TransmitStep :
    (∃ (s : State) (choice : Option Reply) (field' : List (Option Reply)) (draws' : Nat), EngineReady s ∧
      s.cmd = .transceive ∧ s.modem = .waitStart ∧ s.txReq = true ∧ s.fifo ≠ [] ∧ s.txMode &&& 0xF8 = 0 ∧
      s.rxMode &&& 0xFC = 0 ∧ (s.tMode.getLsbD 7 = true → s.tMode &&& 0x60 = 0) ∧ s.field = choice :: field' ∧
      draws' = s.draws + 1) ∧
    (∃ (s : State) (choice : Option Reply) (draws' : Nat), EngineReady s ∧ s.cmd = .transceive ∧ s.modem = .waitStart ∧
      s.txReq = true ∧ s.fifo ≠ [] ∧ s.txMode &&& 0xF8 = 0 ∧ s.rxMode &&& 0xFC = 0 ∧
      (s.tMode.getLsbD 7 = true → s.tMode &&& 0x60 = 0) ∧ s.field = [] ∧
      choice = Config.freeReply (s.draws + 1) ∧ draws' = s.draws + 2) :=
  ⟨⟨{ sending [0x52] with field := [some (reply .one [])] }, some (reply .one []), [], _, ⟨rfl, rfl, rfl⟩, rfl, rfl, rfl,
     by decide, by decide, by decide, by decide, rfl, rfl⟩,
   ⟨{ sending [0x52] with txMode := 0x07, tMode := 0x6F }, _, _, ⟨rfl, rfl, rfl⟩, rfl, rfl, rfl, by decide, by decide,
     by decide, by decide, rfl, rfl, rfl⟩⟩

theorem witness_TransmitRefusalsAndSilence :
    (∃ s : State, EngineReady s ∧ s.cmd = .transceive ∧ s.modem = .waitStart ∧ s.txReq = true ∧ s.rxMode &&& 0xFC ≠ 0) ∧
    (∃ s : State, EngineReady s ∧ s.cmd = .transceive ∧ s.modem = .waitStart ∧ s.txReq = true ∧
      s.tMode.getLsbD 7 = true ∧ s.tMode &&& 0x60 ≠ 0) ∧
    (∃ s : State, EngineReady s ∧ s.cmd = .transceive ∧ s.modem = .waitStart ∧ s.txReq = true ∧
      s.txMode &&& 0xF8 = 0 ∧ s.rxMode &&& 0xFC = 0 ∧ (s.tMode.getLsbD 7 = true → s.tMode &&& 0x60 = 0) ∧
      s.fifo = []) ∧
    (∃ s : State, s.cmd = .transceive ∧ s.modem = .waitStart ∧ s.txReq = false ∧ s.pendingResp = none) :=
  ⟨⟨{ sending [0x52] with rxMode := 0x04 }, ⟨rfl, rfl, rfl⟩, rfl, rfl, rfl, by decide⟩,
   ⟨{ sending [0x52] with tMode := 0xA0 }, ⟨rfl, rfl, rfl⟩, rfl, rfl, rfl, by decide, by decide⟩,
   ⟨sending [], ⟨rfl, rfl, rfl⟩, rfl, rfl, rfl, by decide, by decide, by decide, rfl⟩,
   ⟨{ sending [] with txReq := false }, rfl, rfl, rfl, rfl⟩⟩

/-- Replies at the ends of the cases: the shortest one, one with a collision, and one of the four bits that stop the
timer. -/
theorem witness_ReceiveStep :
    ∀ r ∈ [reply .one [], reply .one [.x, .x], reply .zero [.one, .zero, .one]],
      EngineReady (receiving r) ∧ (receiving r).cmd = .transceive ∧ (receiving r).modem = .waitData ∧
        (receiving r).pendingResp = some r ∧ (receiving r).rcvOff = false :=
  fun _ _ => ⟨⟨rfl, rfl, rfl⟩, rfl, rfl, rfl, rfl⟩

theorem witness_ReceivedBitsStandInOrder :
    (∃ (s : State) (r : Reply), r.syms[2]? = some .one ∧ s.valuesAfterColl = false ∧
      Sys2Proof.Sym.x ∈ r.syms.take (2 + 1)) ∧
    (∃ (s : State) (r : Reply), r.syms[2]? = some .one ∧ s.valuesAfterColl = true ∧
      Sys2Proof.Sym.one ≠ .x) ∧
    ∃ r : Reply, r.syms[0]? = some .one ∧ Sys2Proof.Sym.x ∉ r.syms.take (0 + 1) :=
  ⟨⟨{ start with valuesAfterColl := false }, reply .one [.x, .one], by decide, by decide, by decide⟩,
   ⟨start, reply .one [.x, .one], by decide, by decide, by decide⟩, reply .one [.x, .one], by decide, by decide⟩

/-- The last position that has a number, the first that has none, and no collision at all. -/
theorem witness_HostReadsTheCollisionPosition :
    ∀ r ∈ [reply .one (List.replicate 30 .one ++ [.x]), reply .one (List.replicate 31 .one ++ [.x]), reply .one []],
      EngineReady (receiving r) ∧ (receiving r).cmd = .transceive ∧ (receiving r).modem = .waitData ∧
        (receiving r).pendingResp = some r ∧ (receiving r).rcvOff = false ∧
        (.x ∉ r.syms → (receiving r).err.getLsbD 3 = false) :=
  fun _ _ => ⟨⟨rfl, rfl, rfl⟩, rfl, rfl, rfl, rfl, fun _ => (by decide : start.err.getLsbD 3 = false)⟩

theorem witness_ReleaseResetIsAHardReset : start.nrst = true ∧ ∃ s : State, s.nrst = false :=
  ⟨rfl, { start with nrst := false }, rfl⟩

theorem witness_ResetAndWakeUpComplete :
    (∃ s : State, s.nrst = true ∧ s.powerDown = false ∧ s.cmd = .softReset ∧ s.pdBusy = true) ∧
    (∃ s : State, s.cmd ≠ .softReset ∧ s.pdBusy = false) ∧
    (∃ s : State, s.nrst = true ∧ s.powerDown = false ∧ s.pdBusy = true ∧ s.cmd ≠ .softReset) ∧
    ∃ s : State, s.nrst = false :=
  ⟨⟨{ start with cmd := .softReset, pdBusy := true }, rfl, rfl, rfl, rfl⟩, ⟨start, by decide, rfl⟩,
   ⟨{ start with pdBusy := true }, rfl, rfl, rfl, by decide⟩, { start with nrst := false }, rfl⟩

theorem witness_OverheatSwitchesTheAntennaOff :
    (∃ s : State, s.nrst = true ∧ s.powerDown = false ∧ s.allowOverheat = true ∧ s.err.getLsbD 6 = false) ∧
    (∃ s : State, s.nrst = true ∧ s.err.getLsbD 6 = true) ∧ (∃ s : State, s.allowOverheat = false) ∧
    ∃ s t : State, exec .irqPin s = .next t :=
  ⟨⟨start, rfl, rfl, rfl, by decide⟩, ⟨{ start with err := 0x40 }, rfl, by decide⟩,
   ⟨{ start with allowOverheat := false }, rfl⟩, start, _, rfl⟩

theorem witness_NoEngineStepInPowerDown :
    (∃ s : State, s.nrst = false) ∧ ∃ s : State, s.nrst = true ∧ s.powerDown = true :=
  ⟨⟨{ start with nrst := false }, rfl⟩, asleep, rfl, rfl⟩

theorem witness_RefusalMarkAndHistorySurvive :
    ∃ (s t : State) (r : RefuseReason), exec (.reserved5 false) s = .next t ∧ s.refused = some r :=
  ⟨{ start with refused := some .timerGated }, _, .timerGated, rfl, rfl⟩

/-- CRC_BYTE moves before, among and after the writes, and the rest in time. -/
theorem witness_ComputeCrcReturnsCrcA :
    ∃ (data : List Byte) (rest : List Move) (s : State), CommandReady s ∧ s.refused = none ∧ data.length ≤ 64 ∧
      s.mode &&& 0x83 = 0x01 ∧ PromptCrc data.length s.sched rest := by
  refine ⟨[0x50, 0x00], [.host],
    { start with
      sched := [.host, .host, .engine .overheat, .host, .host, .host, .host, .engine .crcByte, .engine .timerExpire,
        .engine .crcByte, .engine .crcDone, .host, .engine .crcByte, .host, .host, .host, .host] },
    ⟨⟨rfl, rfl⟩, rfl⟩, rfl, by decide, by decide,
    [.host, .engine .overheat, .host, .host, .host],
    [.engine .crcByte, .engine .timerExpire, .engine .crcByte], [.host, .engine .crcByte, .host, .host, .host],
    rfl, by decide, by decide, ?_, by decide⟩
  exact Nat.succ_pos _

/-- A reply with a collision at the highest RxAlign, and a whole byte with a CRC check it is too short for. -/
theorem witness_TransceiveReturnsTheReply :
    ∀ c ∈ [((⟨false, 7, 2⟩ : TransceiveOptions), reply .one [.x]),
        (⟨true, 0, 0⟩, reply .one (List.replicate 7 .zero))],
      ∃ (data : List Byte) (vb : Nat) (s : State), CommandReady s ∧ s.refused = none ∧ data ≠ [] ∧ data.length ≤ 64 ∧
        vb ≤ 7 ∧ c.1.rxAlign ≤ 7 ∧ s.txControl &&& 0x03 = 0x03 ∧ s.txMode &&& 0xF8 = 0 ∧ s.rxMode &&& 0xFC = 0 ∧
        (s.tMode.getLsbD 7 = true → s.tMode &&& 0x60 = 0) ∧ s.tRunning = false ∧ c.2.parityErr = false ∧
        c.2.protocolErr = false ∧ (c.1.rxAlign + c.2.syms.length + 7) / 8 ≤ 64 ∧
        (c.1.checkCrc = false ∨ Sys2Proof.Sym.x ∈ c.2.syms ∨
          c.1.checkCrc = true ∧ ((c.1.rxAlign + c.2.syms.length + 7) / 8 < 2 ∨
            (c.1.rxAlign + c.2.syms.length) % 8 ≠ 0)) ∧
        s.field = some c.2 :: [] ∧ s.cancels = List.replicate (0 + 1) false ++ [] ∧
        PromptReply data.length ((c.1.rxAlign + c.2.syms.length + 7) / 8) (Config.waitBudget c.1.expectLen) 0 s.sched [] ∧
        NoOverheat s [] := by
  intro c hc
  refine ⟨[0x52], 7,
    { start with
      field := [some c.2], cancels := [false]
      sched := .host :: List.replicate 6 .host ++ .host :: [.engine .rx] ++ .engine .tx :: [.engine .tx] ++
        .engine .rx :: List.replicate ((c.1.rxAlign + c.2.syms.length + 7) / 8 + 4) .host ++ [] },
    ⟨⟨rfl, rfl⟩, rfl⟩, rfl, by decide, by decide, by decide, ?_,
    (by decide : start.txControl &&& 0x03 = 0x03), (by decide : start.txMode &&& 0xF8 = 0),
    (by decide : start.rxMode &&& 0xFC = 0), fun _ => (by decide : start.tMode &&& 0x60 = 0), rfl, ?_, ?_, ?_, ?_, rfl,
    rfl, ⟨0, [.engine .tx], List.replicate ((c.1.rxAlign + c.2.syms.length + 7) / 8 + 4) .host,
      ⟨List.replicate 6 .host, [.engine .rx], by simp, by decide, by decide, rfl, ?_⟩, by decide, by decide, rfl, ?_,
      by simp⟩,
    fun _ => ⟨_, (List.append_nil _).symm, by simp⟩⟩
  all_goals
    first
    | exact waitBudget_pos _
    | (simp only [List.mem_cons, List.not_mem_nil, or_false] at hc
       rcases hc with rfl | rfl <;> decide)

/-- A silent FIELD with the antenna on, and an antenna that is off with a reply that stands ready. -/
theorem witness_SilenceEndsInTimeout :
    ∀ s₀ ∈ [{ start with field := [none] }, { start with txControl := 0x80, field := [some (reply .one [])] }],
      ∃ (data : List Byte) (vb : Nat) (o : TransceiveOptions) (wait : List Move) (s : State),
        s = { s₀ with sched := s.sched, cancels := s.cancels } ∧ CommandReady s ∧ s.refused = none ∧ data ≠ [] ∧
        data.length ≤ 64 ∧ vb ≤ 7 ∧ o.rxAlign ≤ 7 ∧ s.txMode &&& 0xF8 = 0 ∧ s.rxMode &&& 0xFC = 0 ∧
        (s.tMode.getLsbD 7 = true → s.tMode &&& 0x60 = 0) ∧ s.tRunning = false ∧
        (s.field.head? = some none ∨ s.txControl &&& 0x03 ≠ 0x03) ∧
        s.cancels = List.replicate (Config.waitBudget o.expectLen) false ++ [] ∧
        PromptTx data.length (Config.waitBudget o.expectLen) 0 s.sched (wait ++ []) ∧
        0 + wait.count .host = Config.waitBudget o.expectLen ∧ NoOverheat s [] := by
  intro s₀ hs
  refine ⟨[0x52], 7, ⟨false, 0, 2⟩, .engine .rx :: List.replicate (Config.waitBudget 2) .host, { s₀ with
      cancels := List.replicate (Config.waitBudget 2) false
      sched := .host :: List.replicate 6 .host ++ .host :: [] ++ .engine .tx :: .engine .rx ::
        List.replicate (Config.waitBudget 2) .host },
    rfl, ?_, ?_, by decide, by decide, by decide, by decide, ?_, ?_, ?_, ?_, ?_, (List.append_nil _).symm,
    ⟨List.replicate 6 .host, [], by simp, by decide, by decide, rfl, waitBudget_pos _⟩, by simp,
    fun _ => ⟨_, (List.append_nil _).symm, by simp⟩⟩
  all_goals
    simp only [List.mem_cons, List.not_mem_nil, or_false] at hs
    rcases hs with rfl | rfl <;> first | exact ⟨⟨rfl, rfl⟩, rfl⟩ | decide

/-- Arguments at the two sides of each bound. -/
theorem witness_BadArgumentsAndCancellationMakeNoChipAccess :
    start.refused = none ∧ (7 : Nat) < 8 ∧ (7 : Nat) ≤ 7 ∧ 64 < (List.replicate 65 (0x52 : Byte)).length ∧
      ([0x52] : List Byte).length < 2 ∧ ∃ s : State, s.refused = none ∧ s.cancels = true :: [] :=
  ⟨rfl, by decide, by decide, by decide, by decide, { start with cancels := [true] }, rfl, rfl⟩

/-- Program P7's schedule on a chip that is on, where no step comes before the SoftReset. -/
theorem witness_ResetEstablishesTheConfiguration_on :
    ∃ s : State, s.nrst = true ∧ s.refused = none ∧ (s.powerDown = true → s.pdBusy = false ∧ s.cmd ≠ .softReset) ∧
      s.powerDown = false ∧ s.pdBusy = false ∧ PromptReset s [] :=
  ⟨{ start with sched := [.host, .host, .host, .engine .resetDone] ++ List.replicate 12 .host }, rfl, rfl,
    fun h => Bool.noConfusion h, rfl, rfl, [], [], [], List.replicate 12 .host, rfl, rfl, rfl, by decide, Nat.succ_pos _,
    by decide, fun _ => by decide⟩

/-- A chip in soft power-down, one in a SoftReset, and one in a wake-up with a request left over. -/
theorem witness_ResetEstablishesTheConfiguration :
    ∀ s₀ ∈ [asleep, { start with cmd := .softReset, pdBusy := true }, { sending [0x52] with pdBusy := true }],
      ∃ s : State, s = { s₀ with sched := s.sched } ∧ s.nrst = true ∧ s.refused = none ∧
        (s.powerDown = true → s.pdBusy = false ∧ s.cmd ≠ .softReset) ∧ PromptReset s [] := by
  intro s₀ hs
  refine ⟨{ s₀ with
      sched := [.host, .engine (if s₀.pdBusy = true ∧ s₀.cmd = .softReset then .resetDone else .wakeDone), .engine .tx,
        .host, .engine .crcByte, .host, .engine .overheat, .engine .resetDone] ++ List.replicate 12 .host },
    rfl, ?_, ?_, ?_,
    [.engine (if s₀.pdBusy = true ∧ s₀.cmd = .softReset then .resetDone else .wakeDone), .engine .tx],
    [.engine .crcByte], [.engine .overheat], List.replicate 12 .host, rfl, ?_, by decide, by decide, Nat.succ_pos _,
    by decide, fun _ => by decide⟩
  all_goals
    simp only [List.mem_cons, List.not_mem_nil, or_false] at hs
    rcases hs with rfl | rfl | rfl <;>
      first
      | decide
      | exact ⟨[], [.engine .tx], rfl, by decide, Nat.succ_pos _, rfl, by decide⟩

end Sys2Proof.Tests
end

section
/-! The step by the move it makes (rules R104, R24, R69): what a move of HOST can do, and the statements about the step
and about the refusal. -/

namespace Sys2Proof.Machine

open Sys2Proof

/-! ### The move that is taken -/

theorem takeMove_of_sched {s : State} {m : Move} {moves : List Move} (h : s.sched = m :: moves) :
    takeMove s = (m, { s with sched := moves }) := by
  unfold takeMove
  rw [h]

theorem takeMove_of_free {s : State} (h : s.sched = []) :
    takeMove s = (Config.freeMove s.draws, bumpDraws 1 s) := by
  unfold takeMove
  rw [h]

theorem nextMove_of_sched {s : State} {m : Move} {moves : List Move} (h : s.sched = m :: moves) : nextMove s = m := by
  rw [nextMove, takeMove_of_sched h]

/-- The step is determined by the refusal mark and the move that is taken. -/
theorem step_congr {s t : State} (hr : s.refused = t.refused) (hm : takeMove s = takeMove t) : step s = step t := by
  unfold step
  rw [hr, hm]

/-! ### HOST's move -/

theorem hostMove_of_operation {s : State} {w : HostWord} {ops : List HostWord} {i : Instr} (ho : s.hostOps = w :: ops)
    (hd : decode w = .ok i) : hostMove s = exec i { s with hostOps := ops } := by
  unfold hostMove takeHostWord
  rw [ho]
  dsimp only
  rw [hd]

theorem hostMove_of_error {s : State} {w : HostWord} {ops : List HostWord} {e : DecodeError}
    (ho : s.hostOps = w :: ops) (hd : decode w = .error e) : hostMove s = .refused .unusedPinCode := by
  unfold hostMove takeHostWord
  rw [ho]
  dsimp only
  rw [hd]

/-- Where HOST's move has a next state, HOST had nothing to do or ran its next operation. -/
theorem hostMove_cases {s t : State} (h : hostMove s = .next t) :
    (s.hostOps = [] ∧ t = s) ∨
      ∃ (w : HostWord) (ops : List HostWord) (i : Instr),
        s.hostOps = w :: ops ∧ decode w = .ok i ∧ exec i { s with hostOps := ops } = .next t := by
  cases ho : s.hostOps with
  | nil =>
    rw [hostMove_of_done ho, Host.Outcome.next.injEq] at h
    exact .inl ⟨rfl, h.symm⟩
  | cons w ops =>
    cases hd : decode w with
    | ok i => exact .inr ⟨w, ops, i, rfl, hd, hostMove_of_operation ho hd ▸ h⟩
    | error e => exact nomatch (hostMove_of_error ho hd).symm.trans h

/-- A step with a next state is an unmarked run's, and makes an ENGINE move or a move of HOST. -/
theorem step_cases {s t : State} (h : step s = .next t) :
    s.refused = none ∧
      ((∃ e, nextMove s = .engine e ∧ t = engineStep e (takeMove s).2) ∨
        (nextMove s = .host ∧ hostMove (takeMove s).2 = .next t)) := by
  cases hr : s.refused with
  | some r => exact nomatch (step_of_refused hr).symm.trans h
  | none =>
    refine ⟨rfl, ?_⟩
    cases hm : nextMove s with
    | host => exact .inr ⟨rfl, step_of_host hr hm ▸ h⟩
    | engine e =>
      rw [step_of_engine hr hm, Host.Outcome.next.injEq] at h
      exact .inl ⟨e, rfl, h.symm⟩

/-! ### The statements about the step -/

/-- Settles O4, by the move taken and the word decoded. -/
theorem stepRunsTheDecodedOperation : Obligations.StepRunsTheDecodedOperation := by
  intro s w ops moves i hr hs ho hd
  rw [step_of_host hr (nextMove_of_sched hs), takeMove_of_sched hs]
  exact hostMove_of_operation ho hd

/-- Settles O5, clause by clause on the move taken; a free move is the one a schedule could have named. -/
theorem stepMakesTheNamedMove : Obligations.StepMakesTheNamedMove := by
  refine ⟨?engine, ?done, ?unused, ?free⟩
  case engine =>
    intro s e moves hr hs
    rw [step_of_engine hr (nextMove_of_sched hs), takeMove_of_sched hs]
  case done =>
    intro s moves hr hs ho
    rw [step_of_host hr (nextMove_of_sched hs), takeMove_of_sched hs]
    exact hostMove_of_done ho
  case unused =>
    intro s w ops moves hr hs ho hd
    rw [step_of_host hr (nextMove_of_sched hs), takeMove_of_sched hs]
    exact hostMove_of_error ho hd
  case free =>
    intro s _ hs
    refine step_congr rfl ?_
    rw [takeMove_of_free hs, takeMove_of_sched rfl, bumpDraws, ← hs]

theorem refuse_of_unmarked (r : RefuseReason) {s : State} (h : s.refused = none) :
    refuse r s = { s with refused := some r, hist := s.hist ++ [.refused r] } := by
  rw [refuse, h]
  rfl

theorem refuse_of_marked (r : RefuseReason) {r' : RefuseReason} {s : State} (h : s.refused = some r') :
    refuse r s = { s with hist := s.hist ++ [.refused r] } := by
  rw [refuse, h, Option.some_or, ← h]
  rfl

/-- Settles O6. -/
theorem refusalMarksTheRunForGood : Obligations.RefusalMarksTheRunForGood :=
  ⟨fun r _ h => refuse_of_unmarked r h, fun r _ _ h => refuse_of_marked r h, fun _ _ h => step_of_refused h⟩

end Sys2Proof.Machine
end

section
/-! What an operation of HOST can do: every bus write is the write of a byte at an address (rule R152), so an operation
is one of eight effects. -/

namespace Sys2Proof.Machine

open Sys2Proof

/-! ### The rows of a bus write as writes of their bytes (rules R144 to R148) -/

theorem registerWrite_cmdByte (r p : Bool) (c : BitVec 4) (s : State) :
    registerWrite commandReg (cmdByte r p c) s = commandWrite r p c s := by
  have hr : (cmdByte r p c).getLsbD 5 = r := by revert r p c; decide
  have hp : (cmdByte r p c).getLsbD 4 = p := by revert r p c; decide
  have hc : (cmdByte r p c).extractLsb' 0 4 = c := by revert r p c; decide
  show commandWrite _ _ _ s = _
  rw [hr, hp, hc]

theorem topByte_top (t : Bool) (m : BitVec 7) : (topByte t m).getLsbD 7 = t := by revert t m; decide

theorem topByte_low (t : Bool) (m : BitVec 7) : (topByte t m).extractLsb' 0 7 = m := by revert t m; decide

theorem registerWrite_comIrq (t : Bool) (m : BitVec 7) (s : State) :
    registerWrite comIrqReg (topByte t m) s = comIrqWrite t m s := by
  show comIrqWrite _ _ s = _
  rw [topByte_top, topByte_low]

theorem registerWrite_divIrq (t : Bool) (m : BitVec 7) (s : State) :
    registerWrite divIrqReg (topByte t m) s = divIrqWrite t m s := by
  show divIrqWrite _ _ s = _
  rw [topByte_top, topByte_low]

theorem registerWrite_flush (x : BitVec 7) (s : State) :
    registerWrite fifoLevelReg (topByte true x) s = hostFlush s := by
  show (if _ then hostFlush s else s) = _
  rw [topByte_top, if_pos rfl]

theorem registerWrite_bfByte (t : Bool) (a l : BitVec 3) (s : State) :
    registerWrite bitFramingReg (bfByte t a l) s = bitFramingWrite t a l s := by
  have ht : (bfByte t a l).getLsbD 7 = t := by revert t a l; decide
  have ha : (bfByte t a l).extractLsb' 4 3 = a := by revert t a l; decide
  have hl : (bfByte t a l).extractLsb' 0 3 = l := by revert t a l; decide
  show bitFramingWrite _ _ _ s = _
  rw [ht, ha, hl]

/-! ### The effects of an operation -/

/-- What an operation of HOST can leave of the state `s`. -/
inductive HostEffect (s : State) : State → Prop where
  /-- A bus write during a reset or a wake-up (rule R201). -/
  | ignored : HostEffect s s
  | refused (r : RefuseReason) : HostEffect s (refuse r s)
  /-- A bus read of any register but FIFODataReg (rule R200). -/
  | answered (v : Byte) : HostEffect s (answer v s)
  | popped : HostEffect s (hostPop s)
  | wrote (a : RegAddr) (v : Byte) (ready : BusReady s) : HostEffect s (registerWrite a v s)
  | resetAsserted : HostEffect s (assertResetPin s)
  | resetReleased : HostEffect s (releaseResetPin s)
  | pinPolled : HostEffect s { s with pinOut := irqActive s }

theorem busWrite_hostEffect {f : State → State} {a : RegAddr} {v : Byte} {s : State} (h : registerWrite a v s = f s) :
    HostEffect s (busWrite f s) := by
  obtain ⟨_, he⟩ | ⟨_, _, he⟩ | ⟨hr, he⟩ := busWrite_cases f s
  all_goals rw [he]
  · exact .refused _
  · exact .ignored
  · exact h ▸ .wrote a v hr

theorem commandWrite_hostEffect (r p : Bool) (c : BitVec 4) (s : State) :
    HostEffect s (busWrite (commandWrite r p c) s) :=
  busWrite_hostEffect (registerWrite_cmdByte r p c s)

theorem registerRead_cases (a : RegAddr) (s : State) :
    registerRead a s = hostPop s ∨ ∃ v, registerRead a s = answer v s := by
  by_cases ha : a = fifoDataReg
  · subst ha
    exact .inl rfl
  · exact .inr ⟨_, registerRead_answers s ha⟩

theorem busRead_hostEffect {f : State → State} {s : State} (a : RegAddr) (h : HostEffect s (f s)) :
    HostEffect s (busRead a f s) := by
  obtain ⟨_, he⟩ | ⟨_, he⟩ | ⟨_, he⟩ := busRead_cases a f s
  · exact he ▸ .refused _
  · exact he ▸ .answered _
  · exact he ▸ h

theorem registerRead_hostEffect (a : RegAddr) (s : State) : HostEffect s (registerRead a s) := by
  obtain he | ⟨v, he⟩ := registerRead_cases a s
  · exact he ▸ .popped
  · exact he ▸ .answered v

theorem busBadAddr_hostEffect (s : State) : HostEffect s (busBadAddr s) := by
  obtain ⟨_, he⟩ | ⟨_, he⟩ := busBadAddr_cases s <;> exact he ▸ .refused _

theorem pollPin_hostEffect (s : State) : HostEffect s (pollPin s) := by
  unfold pollPin
  split
  · exact .refused _
  · exact .pinPolled

/-- Every operation has a next state, by one of the effects. -/
theorem exec_effect (i : Instr) (s : State) : ∃ t, exec i s = .next t ∧ HostEffect s t := by
  cases i with
  | rd a => exact ⟨_, rfl, busRead_hostEffect a (registerRead_hostEffect a s)⟩
  | fifoPop => exact ⟨_, rfl, busRead_hostEffect fifoDataReg .popped⟩
  | badAddr | badAddr6 => exact ⟨_, rfl, busBadAddr_hostEffect s⟩
  | wr a d => exact ⟨_, rfl, busWrite_hostEffect (a := a) (v := d) rfl⟩
  | idle | mem | genRandId | calcCrc | transmit | reserved5 | reserved6 | noCmdChange | receive | reserved9 | reservedA
  | reservedB | transceive | reservedD | mfAuthent | softReset | powerDown =>
    exact ⟨_, rfl, commandWrite_hostEffect _ _ _ s⟩
  | irqSet m | irqClear m => exact ⟨_, rfl, busWrite_hostEffect (registerWrite_comIrq _ m s)⟩
  | divIrqSet m | divIrqClear m => exact ⟨_, rfl, busWrite_hostEffect (registerWrite_divIrq _ m s)⟩
  | fifoPush d => exact ⟨_, rfl, busWrite_hostEffect (a := fifoDataReg) (v := d) rfl⟩
  | flushBuffer x => exact ⟨_, rfl, busWrite_hostEffect (registerWrite_flush x s)⟩
  | tStopNow x => exact ⟨_, rfl, busWrite_hostEffect (a := controlReg) (v := 1#1 ++ x) rfl⟩
  | tStartNow x => exact ⟨_, rfl, busWrite_hostEffect (a := controlReg) (v := 1#2 ++ x) rfl⟩
  | startSend a l => exact ⟨_, rfl, busWrite_hostEffect (registerWrite_bfByte true a l s)⟩
  | assertReset => exact ⟨_, rfl, .resetAsserted⟩
  | releaseReset => exact ⟨_, rfl, .resetReleased⟩
  | irqPin => exact ⟨_, rfl, pollPin_hostEffect s⟩

theorem exec_hostEffect {i : Instr} {s t : State} (h : exec i s = .next t) : HostEffect s t := by
  obtain ⟨t', he, ht⟩ := exec_effect i s
  obtain rfl : t' = t := Host.Outcome.next.inj (he.symm.trans h)
  exact ht

end Sys2Proof.Machine
end

section
/-! The invariant (rules R11, R34, R36, R45, R57, R76, R225, R228, R300, R311, R312, R411): what keeps it, operation by
operation, and that every step does. -/

namespace Sys2Proof.Machine

open Sys2Proof

/-! ### The fields the invariant speaks of -/

/-- The state with every field that the invariant does not read at its reset value. -/
def invariantPart (s : State) : State :=
  { State.reset with
    cmd := s.cmd, rcvOff := s.rcvOff, powerDown := s.powerDown, pdBusy := s.pdBusy, divIEn := s.divIEn, err := s.err
    fifo := s.fifo, txControl := s.txControl, tMode := s.tMode, tPrescaler := s.tPrescaler, modem := s.modem
    txReq := s.txReq, pendingResp := s.pendingResp, other := s.other, nrst := s.nrst }

theorem chipInv_invariantPart (s : State) : ChipInv (invariantPart s) ↔ ChipInv s :=
  ⟨fun h => { h with }, fun h => { h with }⟩

/-- Two states that agree on the fields the invariant reads have it together. -/
theorem chipInv_congr {s t : State} (h : invariantPart t = invariantPart s) : ChipInv t ↔ ChipInv s := by
  rw [← chipInv_invariantPart, h, chipInv_invariantPart]

theorem ChipInv.congr {s t : State} (h : ChipInv s) (e : invariantPart t = invariantPart s) : ChipInv t :=
  (chipInv_congr e).2 h

/-! ### Operations on other fields alone -/

@[simp] theorem chipInv_bumpDraws (k : Nat) (s : State) : ChipInv (bumpDraws k s) ↔ ChipInv s := chipInv_congr rfl
@[simp] theorem chipInv_logEvent (e : Event) (s : State) : ChipInv (logEvent e s) ↔ ChipInv s := chipInv_congr rfl
@[simp] theorem chipInv_refuse (r : RefuseReason) (s : State) : ChipInv (refuse r s) ↔ ChipInv s := chipInv_congr rfl
@[simp] theorem chipInv_answer (v : Byte) (s : State) : ChipInv (answer v s) ↔ ChipInv s := chipInv_congr rfl
@[simp] theorem chipInv_raiseCom (m : BitVec 7) (s : State) : ChipInv (raiseCom m s) ↔ ChipInv s := chipInv_congr rfl
@[simp] theorem chipInv_withAlerts (old s : State) : ChipInv (withAlerts old s) ↔ ChipInv s := chipInv_congr rfl
@[simp] theorem chipInv_crcDoneEffect (s : State) : ChipInv (crcDoneEffect s) ↔ ChipInv s := chipInv_congr rfl

@[simp] theorem chipInv_controlWrite (v : Byte) (s : State) : ChipInv (controlWrite v s) ↔ ChipInv s :=
  chipInv_congr (by rw [controlWrite_frame]; rfl)

@[simp] theorem chipInv_timerExpireEffect (s : State) : ChipInv (timerExpireEffect s) ↔ ChipInv s :=
  chipInv_congr (by rw [timerExpireEffect_frame]; rfl)

@[simp] theorem chipInv_stopTimerOnReply (r : Reply) (s : State) : ChipInv (stopTimerOnReply r s) ↔ ChipInv s :=
  chipInv_congr (by rw [stopTimerOnReply_frame]; rfl)

@[simp] theorem chipInv_takeMove (s : State) : ChipInv (takeMove s).2 ↔ ChipInv s :=
  chipInv_congr (by rw [takeMove_frame]; rfl)

/-! ### ErrorReg and the FIFO -/

/-- An error register without CRCErr and the reserved bit may be stored. -/
theorem ChipInv.with_err {s : State} (h : ChipInv s) {e : Byte} (he : e &&& 0x24 = 0) : ChipInv { s with err := e } :=
  { h with no_crcErr := he }

/-- A FIFO within its depth may be stored. -/
theorem ChipInv.with_fifo {s : State} (h : ChipInv s) {q : List Byte} (hq : q.length ≤ Config.fifoDepth) :
    ChipInv { s with fifo := q } :=
  { h with fifo_fits := hq }

theorem chipInv_setErr {s : State} (h : ChipInv s) {m : Byte} (hm : m &&& 0x24 = 0) : ChipInv (setErr m s) := by
  have he : (s.err ||| m) &&& 0x24 = 0 := by rw [BitVec.and_or_distrib_right, h.no_crcErr, hm, BitVec.or_self]
  exact (h.with_err he).congr rfl

theorem chipInv_maskErr {s : State} (h : ChipInv s) (m : Byte) : ChipInv { s with err := s.err &&& m } :=
  h.with_err (by rw [BitVec.and_assoc, BitVec.and_comm m, ← BitVec.and_assoc, h.no_crcErr]; exact BitVec.zero_and)

theorem chipInv_clearErr {s : State} (h : ChipInv s) (m : Byte) : ChipInv (clearErr m s) := chipInv_maskErr h _

theorem chipInv_fifoPush {s : State} (h : ChipInv s) (b : Byte) : ChipInv (fifoPush b s) := by
  obtain ⟨hl, he⟩ | ⟨_, he⟩ := fifoPush_cases b s <;> rw [he]
  · exact h.with_fifo (by rw [List.length_append, List.length_singleton]; exact hl)
  · exact chipInv_setErr h rfl

theorem chipInv_fifoPushAll {s : State} (h : ChipInv s) (bs : List Byte) : ChipInv (fifoPushAll bs s) := by
  induction bs generalizing s with
  | nil => exact h
  | cons b bs ih => exact ih (chipInv_fifoPush h b)

theorem chipInv_fifoDropOldest {s : State} (h : ChipInv s) : ChipInv (fifoDropOldest s) :=
  h.with_fifo (by rw [List.length_tail]; exact Nat.le_trans (Nat.sub_le _ _) h.fifo_fits)

theorem chipInv_hostPush {s : State} (h : ChipInv s) (b : Byte) : ChipInv (hostPush b s) := by
  have h₁ : ChipInv (if s.cmd = .transceive ∧ s.modem = .waitData then setErr wrErr s else s) := by
    split
    · exact chipInv_setErr h rfl
    · exact h
  have h₂ := chipInv_fifoPush h₁ b
  unfold hostPush
  rw [chipInv_withAlerts]
  split
  · exact h₂.congr rfl
  · exact h₂

theorem chipInv_hostPop {s : State} (h : ChipInv s) : ChipInv (hostPop s) := by
  unfold hostPop
  split
  · exact (chipInv_answer _ s).2 h
  · rw [chipInv_answer, chipInv_withAlerts]
    exact chipInv_fifoDropOldest h

theorem chipInv_hostFlush {s : State} (h : ChipInv s) : ChipInv (hostFlush s) := by
  rw [hostFlush, chipInv_withAlerts]
  exact chipInv_clearErr (h.with_fifo (Nat.zero_le _)) _

/-! ### The active command and its phase -/

/-- A pending reply may be lost. -/
theorem ChipInv.without_reply {s : State} (h : ChipInv s) : ChipInv { s with pendingResp := none } :=
  { h with reply_waits := fun hp => absurd rfl hp }

theorem chipInv_stopCommand {s : State} (h : ChipInv s) : ChipInv (stopCommand s) :=
  { h with
    modem_phase := by simp
    request_waits := nofun
    reply_waits := fun hp => absurd rfl hp
    softReset_busy := nofun }

theorem chipInv_clearErrAtStart {s : State} (h : ChipInv s) : ChipInv (clearErrAtStart s) := chipInv_maskErr h _

theorem chipInv_setRcvOff {s : State} (h : ChipInv s) (r : Bool) : ChipInv (setRcvOff r s) := by
  refine { h with reply_waits := fun hp => ?_ }
  simp only [setRcvOff] at hp ⊢
  split at hp
  · exact absurd rfl hp
  next hr =>
    obtain ⟨hm, _, hf⟩ := h.reply_waits hp
    exact ⟨hm, by simpa [hm] using hr, hf⟩

theorem chipInv_startCalcCrc {s : State} (h : ChipInv s) (hc : s.cmd = .idle) : ChipInv (startCalcCrc s) := by
  unfold startCalcCrc
  split
  · exact (chipInv_refuse _ s).2 h
  · have hm : s.modem = .idle := h.modem_phase.2 (by rw [hc]; decide)
    exact { h with modem_phase := by simp [hm], softReset_busy := nofun }

theorem chipInv_startTransceive {s : State} (h : ChipInv s) : ChipInv (startTransceive s) :=
  { h with
    modem_phase := by simp [startTransceive]
    request_waits := nofun
    reply_waits := fun hp => absurd rfl hp
    softReset_busy := nofun }

theorem chipInv_startSoftReset {s : State} (h : ChipInv s) (hc : s.cmd = .idle) (hp : s.powerDown = false) :
    ChipInv (startSoftReset s) := by
  have hm : s.modem = .idle := h.modem_phase.2 (by rw [hc]; decide)
  exact { h with
    modem_phase := by simp [startSoftReset, hm]
    softReset_busy := fun _ => rfl
    powerDown_not_busy := fun hd => absurd (hp.symm.trans hd) Bool.false_ne_true }

theorem chipInv_startCommandEngine {s : State} (h : ChipInv s) (c : Cmd) (hc : s.cmd = .idle)
    (hp : s.powerDown = false) : ChipInv (startCommandEngine c s) := by
  cases c with
  | idle => exact h
  | calcCrc => exact chipInv_startCalcCrc h hc
  | transceive => exact chipInv_startTransceive h
  | softReset => exact chipInv_startSoftReset h hc hp

theorem chipInv_writeCommandCode {s : State} (h : ChipInv s) (c : BitVec 4) (hp : s.powerDown = false) :
    ChipInv (writeCommandCode c s) := by
  unfold writeCommandCode
  split
  · exact h
  · exact (chipInv_refuse _ s).2 h
  · exact (chipInv_refuse _ s).2 h
  next k _ => exact chipInv_startCommandEngine (chipInv_clearErrAtStart (chipInv_stopCommand h)) k rfl hp

/-- In soft power-down the field is off, so no reply is pending when the wake-up starts. -/
theorem chipInv_commandWhilePoweredDown {s : State} (h : ChipInv s) (p : Bool) (c : BitVec 4)
    (hd : s.powerDown = true) : ChipInv (commandWhilePoweredDown p c s) := by
  have hr : s.pendingResp = none := Decidable.of_not_not fun hp => by simpa [fieldOn, hd] using (h.reply_waits hp).2.2
  unfold commandWhilePoweredDown
  split
  · exact (chipInv_refuse _ s).2 h
  · split
    · exact h
    · exact { h with
        reply_waits := fun hp => absurd hr hp
        softReset_busy := fun _ => rfl
        powerDown_not_busy := nofun }

theorem chipInv_enterPowerDown {s : State} (h : ChipInv s) (c : BitVec 4) (hb : s.pdBusy = false) :
    ChipInv (enterPowerDown c s) := by
  unfold enterPowerDown
  split
  · exact (chipInv_refuse _ s).2 h
  · have h₁ : ChipInv (if cmdClass c = .start .idle then stopCommand s else s) := by
      split
      · exact chipInv_stopCommand h
      · exact h
    have hb₁ : (if cmdClass c = .start .idle then stopCommand s else s).pdBusy = false := by
      split <;> exact hb
    exact { h₁.without_reply with powerDown_not_busy := fun _ => hb₁, reply_waits := fun hp => absurd rfl hp }

theorem chipInv_commandWrite {s : State} (h : ChipInv s) (r p : Bool) (c : BitVec 4) (hb : s.pdBusy = false) :
    ChipInv (commandWrite r p c s) := by
  have h₁ := chipInv_setRcvOff h r
  cases hd : s.powerDown with
  | true => exact commandWrite_asleep r p c hd ▸ chipInv_commandWhilePoweredDown h₁ p c hd
  | false =>
    cases p with
    | true => exact commandWrite_powerDown r c hd ▸ chipInv_enterPowerDown h₁ c hb
    | false => exact commandWrite_awake r c hd ▸ chipInv_writeCommandCode h₁ c hd

/-! ### Writes of the other registers -/

theorem chipInv_startSendRequest {s : State} (h : ChipInv s) : ChipInv (startSendRequest s) := by
  unfold startSendRequest
  split
  next hw => exact { h with request_waits := fun _ => hw.2.1 }
  · exact h

theorem chipInv_bitFramingWrite {s : State} (h : ChipInv s) (b : Bool) (a l : BitVec 3) :
    ChipInv (bitFramingWrite b a l s) := by
  have h₁ : ChipInv { s with rxAlign := a, txLastBits := l, startSend := b } := h.congr rfl
  unfold bitFramingWrite
  split
  · exact chipInv_startSendRequest h₁
  · exact h₁

theorem chipInv_txControlWrite {s : State} (h : ChipInv s) (v : Byte) : ChipInv (txControlWrite v s) := by
  refine { h with reply_waits := fun hp => ?_ }
  simp only [txControlWrite] at hp ⊢
  split at hp
  next ha =>
    obtain ⟨hm, hr, hf⟩ := h.reply_waits hp
    simp only [fieldOn, Bool.and_eq_true] at hf ⊢
    exact ⟨hm, hr, ⟨ha, hf.1.2⟩, hf.2⟩
  · exact absurd rfl hp

/-- A write keeps the bits it does not store. -/
theorem storeBits_and (mask old v k : Byte) (hk : mask &&& k = 0) : storeBits mask old v &&& k = old &&& k :=
  drawBitsIn_and mask v old k hk

theorem chipInv_divIEnWrite {s : State} (h : ChipInv s) (v : Byte) :
    ChipInv { s with divIEn := storeBits (~~~reservedBits .divIEn) s.divIEn v } :=
  { h with divIEn_reserved := (storeBits_and _ _ _ _ rfl).trans h.divIEn_reserved }

theorem chipInv_tModeWrite {s : State} (h : ChipInv s) (v : Byte) :
    ChipInv { s with tMode := v, tPrescaler := v.extractLsb' 0 4 ++ s.tPrescaler.extractLsb' 0 8 } :=
  { h with prescaler_hi := BitVec.extractLsb'_append_eq_left }

theorem chipInv_tPrescalerWrite {s : State} (h : ChipInv s) (v : Byte) :
    ChipInv { s with tPrescaler := s.tPrescaler.extractLsb' 8 4 ++ v } :=
  { h with prescaler_hi := BitVec.extractLsb'_append_eq_left.trans h.prescaler_hi }

theorem chipInv_outsideWrite {s : State} (h : ChipInv s) (a : Nat) (v : Byte) :
    ChipInv { s with other := memWrite s.other a v } :=
  { h with other_wf := memWrite_wf _ _ _ h.other_wf }

theorem chipInv_registerWrite {s : State} (h : ChipInv s) (a : RegAddr) (v : Byte) (hb : s.pdBusy = false) :
    ChipInv (registerWrite a v s) := by
  unfold registerWrite
  cases regAt a with
  | command => exact chipInv_commandWrite h _ _ _ hb
  | divIEn => exact chipInv_divIEnWrite h v
  | fifoData => exact chipInv_hostPush h v
  | fifoLevel =>
    dsimp only
    split
    · exact chipInv_hostFlush h
    · exact h
  | control => exact (chipInv_controlWrite v s).2 h
  | bitFraming => exact chipInv_bitFramingWrite h _ _ _
  | txControl => exact chipInv_txControlWrite h v
  | tMode => exact chipInv_tModeWrite h v
  | tPrescaler => exact chipInv_tPrescalerWrite h v
  | outside => exact chipInv_outsideWrite h _ v
  | comIEn | comIrq | divIrq | status2 | waterLevel | coll | mode | txMode | rxMode | txASK | tReloadH | tReloadL =>
    exact h.congr rfl
  | error | status1 | crcResultH | crcResultL | tCounterH | tCounterL | version | outsideReadOnly | reserved => exact h

/-! ### The reset pin, and the operations -/

theorem chipInv_reset : ChipInv State.reset := by
  constructor <;> decide

theorem chipInv_assertResetPin {s : State} (h : ChipInv s) : ChipInv (assertResetPin s) :=
  { chipInv_stopCommand h with reply_waits := fun hp => absurd rfl hp }

theorem chipInv_releaseResetPin {s : State} (h : ChipInv s) : ChipInv (releaseResetPin s) := by
  unfold releaseResetPin
  split
  · exact h
  · exact chipInv_reset.congr rfl

theorem HostEffect.chipInv {s t : State} (ht : HostEffect s t) (h : ChipInv s) : ChipInv t := by
  cases ht with
  | ignored => exact h
  | refused r => exact (chipInv_refuse r s).2 h
  | answered v => exact (chipInv_answer v s).2 h
  | popped => exact chipInv_hostPop h
  | wrote a v ready => exact chipInv_registerWrite h a v ready.settled
  | resetAsserted => exact chipInv_assertResetPin h
  | resetReleased => exact chipInv_releaseResetPin h
  | pinPolled => exact h.congr rfl

/-! ### The ENGINE steps -/

theorem chipInv_crcByteEffect {s : State} (h : ChipInv s) : ChipInv (crcByteEffect s) := by
  unfold crcByteEffect
  split
  · exact h
  · rw [chipInv_withAlerts, chipInv_logEvent]
    exact (chipInv_fifoDropOldest h).congr rfl

theorem chipInv_transmitFrame {s : State} (h : ChipInv s) : ChipInv (transmitFrame s) := by
  rw [transmitFrame, chipInv_raiseCom, chipInv_logEvent]
  exact { h with fifo_fits := Nat.zero_le _, request_waits := nofun }

theorem chipInv_receiverStartUp {s : State} (h : ChipInv s) : ChipInv (receiverStartUp s) :=
  (chipInv_clearErr h _).congr rfl

/-- FIELD replies only to a receiver that is on, in a field that is there (rule R312). -/
theorem fieldReply_ne_none {s : State} (h : fieldReply s ≠ none) : s.rcvOff = false ∧ fieldOn s = true := by
  unfold fieldReply at h
  split at h
  next hf => simpa [and_comm] using hf
  · exact absurd rfl h

theorem chipInv_awaitReply {s : State} (h : ChipInv s) (hc : s.cmd = .transceive) (hq : s.txReq = false) :
    ChipInv (awaitReply s) := by
  rw [awaitReply_frame]
  refine ChipInv.congr (s := { s with pendingResp := fieldReply s, modem := .waitData }) ?_ rfl
  exact { h with
    modem_phase := by simp [hc]
    request_waits := fun hr => absurd (hq.symm.trans hr) Bool.false_ne_true
    reply_waits := fun hp => ⟨rfl, fieldReply_ne_none hp⟩ }

theorem chipInv_txEffect {s : State} (h : ChipInv s) (hc : s.cmd = .transceive) : ChipInv (txEffect s) := by
  unfold txEffect
  split
  · exact (chipInv_refuse _ s).2 h
  · split
    · exact (chipInv_refuse _ s).2 h
    · rw [chipInv_withAlerts]
      exact chipInv_awaitReply (chipInv_receiverStartUp (chipInv_transmitFrame h)) hc rfl

theorem chipInv_storeReply {s : State} (h : ChipInv s) (r : Reply) : ChipInv (storeReply r s) :=
  (chipInv_fifoPushAll ((chipInv_bumpDraws _ s).2 h) _).congr rfl

theorem chipInv_collision {s : State} (h : ChipInv s) (j : Option Nat) : ChipInv (collision j s) := by
  cases j with
  | none => exact h.congr rfl
  | some j =>
    have h₁ : ChipInv (setErr collErr s) := chipInv_setErr h rfl
    unfold collision
    dsimp only
    split <;> exact h₁.congr rfl

theorem chipInv_flagReply {s : State} (h : ChipInv s) (r : Reply) : ChipInv (flagReply r s) := by
  have h₁ := chipInv_collision h (firstCollision r.syms)
  have h₂ : ChipInv (if r.parityErr then setErr parityErr (collision (firstCollision r.syms) s)
      else collision (firstCollision r.syms) s) := by
    split
    · exact chipInv_setErr h₁ rfl
    · exact h₁
  unfold flagReply
  dsimp only
  split
  · exact chipInv_setErr h₂ rfl
  · exact h₂

/-- After a reception Transceive is back in WAIT_START. -/
theorem chipInv_waitStart {s : State} (h : ChipInv s) (hc : s.cmd = .transceive) (hp : s.pendingResp = none) :
    ChipInv { s with modem := .waitStart } :=
  { h with
    modem_phase := by simp [hc]
    request_waits := fun _ => rfl
    reply_waits := fun hr => absurd hp hr }

theorem chipInv_rxEffect {s : State} (h : ChipInv s) (hc : s.cmd = .transceive) : ChipInv (rxEffect s) := by
  unfold rxEffect
  split
  · exact h
  next r _ =>
    have h₁ := chipInv_flagReply (chipInv_storeReply h.without_reply r) r
    rw [chipInv_withAlerts, chipInv_raiseCom]
    refine chipInv_waitStart ((chipInv_logEvent _ _).2 ((chipInv_stopTimerOnReply r _).2 h₁)) ?_ ?_
    all_goals rw [stopTimerOnReply_frame, flagReply_frame, storeReply_frame]
    · exact hc
    · rfl

theorem chipInv_overheatEffect {s : State} (h : ChipInv s) : ChipInv (overheatEffect s) := by
  rw [overheatEffect, chipInv_logEvent]
  exact { chipInv_setErr h (m := tempErr) rfl with reply_waits := fun hp => absurd rfl hp }

theorem chipInv_resetDoneEffect (s : State) : ChipInv (resetDoneEffect s) := by
  rw [resetDoneEffect, chipInv_logEvent, chipInv_raiseCom]
  exact { chipInv_reset with
    reply_waits := fun hp => absurd rfl hp
    softReset_busy := nofun
    powerDown_not_busy := nofun }

theorem chipInv_wakeDoneEffect {s : State} (h : ChipInv s) (hc : s.cmd ≠ .softReset) : ChipInv (wakeDoneEffect s) :=
  { h with softReset_busy := fun he => absurd he hc, powerDown_not_busy := fun _ => rfl }

/-- A step that is taken keeps the invariant; TX, RX and WAKE_DONE under the command they are enabled for. -/
theorem chipInv_engineEffect {e : EngineStep} {s : State} (h : ChipInv s) (he : engineEnabled e s = true) :
    ChipInv (engineEffect e s) := by
  cases e with
  | crcByte => exact chipInv_crcByteEffect h
  | crcDone => exact (chipInv_crcDoneEffect s).2 h
  | timerExpire => exact (chipInv_timerExpireEffect s).2 h
  | overheat => exact chipInv_overheatEffect h
  | resetDone => exact chipInv_resetDoneEffect s
  | tx =>
    simp only [engineEnabled, Bool.and_eq_true, beq_iff_eq] at he
    exact chipInv_txEffect h he.1.1.2
  | rx =>
    simp only [engineEnabled, Bool.and_eq_true, beq_iff_eq] at he
    exact chipInv_rxEffect h he.1.1.1.2
  | wakeDone =>
    simp only [engineEnabled, Bool.and_eq_true, bne_iff_ne] at he
    exact chipInv_wakeDoneEffect h he.2

theorem chipInv_engineStep {s : State} (h : ChipInv s) (e : EngineStep) : ChipInv (engineStep e s) := by
  obtain ⟨he, hs⟩ | ⟨_, hs⟩ := engineStep_cases e s <;> rw [hs]
  · exact chipInv_engineEffect h he
  · exact h

/-! ### The step -/

theorem chipInv_hostMove {s t : State} (h : ChipInv s) (hm : hostMove s = .next t) : ChipInv t := by
  obtain ⟨_, rfl⟩ | ⟨_, ops, i, _, _, he⟩ := hostMove_cases hm
  · exact h
  · have h₁ : ChipInv { s with hostOps := ops } := h.congr rfl
    exact (exec_hostEffect he).chipInv h₁

/-- Settles O9: an ENGINE move and a move of HOST each keep the invariant. -/
theorem stepKeepsTheInvariant : Obligations.StepKeepsTheInvariant := by
  intro s t h hs
  have h₁ : ChipInv (takeMove s).2 := (chipInv_takeMove s).2 h
  obtain ⟨_, ⟨e, _, rfl⟩ | ⟨_, hm⟩⟩ := step_cases hs
  · exact chipInv_engineStep h₁ e
  · exact chipInv_hostMove h₁ hm

end Sys2Proof.Machine
end

section
/-! The FIFO as HOST sees it (rules R23, R110 to R112, R206 to R208): push, pop and flush as full equations. -/

namespace Sys2Proof.Machine

open Sys2Proof

/-! ### The parts of a push -/

/-- A mark that depends on a condition, as one equation of its two fields. -/
theorem ite_setErr (p : Prop) [Decidable p] (m : Byte) (s : State) :
    (if p then setErr m s else s) =
      { s with err := s.err ||| (if p then m else 0), comIrq := s.comIrq ||| (if p then errIRq else 0) } := by
  by_cases hp : p
  · simp only [hp, if_true]
    rfl
  · simp [hp]

/-- An alert does not rise where neither the FIFO nor the water level changes. -/
@[simp] theorem alertRise_self (s : State) : alertRise s s.fifo s.waterLevel = 0 := by
  have hi : ¬(s.waterLevel.toNat < Config.fifoDepth - s.fifo.length ∧
      Config.fifoDepth - s.fifo.length ≤ s.waterLevel.toNat) := fun h => absurd h.1 (Nat.not_lt.2 h.2)
  have lo : ¬(s.waterLevel.toNat < s.fifo.length ∧ s.fifo.length ≤ s.waterLevel.toNat) :=
    fun h => absurd h.1 (Nat.not_lt.2 h.2)
  rw [alertRise, if_neg hi, if_neg lo]
  rfl

theorem fifoPush_of_room (b : Byte) {s : State} (h : s.fifo.length < 64) :
    fifoPush b s = { s with fifo := s.fifo ++ [b] } := if_pos h

theorem fifoPush_of_full (b : Byte) {s : State} (h : 64 ≤ s.fifo.length) : fifoPush b s = setErr bufferOvfl s :=
  if_neg (Nat.not_lt.2 h)

/-- The coprocessor's flag, as one equation of its field (rule R255). -/
theorem ite_crcReady (p : Prop) [Decidable p] (s : State) :
    (if p then { s with crcReady := false } else s) = { s with crcReady := if p then false else s.crcReady } := by
  split <;> rfl

/-! ### The operations -/

theorem hostPush_of_room (b : Byte) {s : State} (h : s.fifo.length < 64) :
    hostPush b s = { s with
      fifo := s.fifo ++ [b]
      err := s.err ||| (if s.cmd = .transceive ∧ s.modem = .waitData then 0x80 else 0)
      comIrq := s.comIrq ||| (if s.cmd = .transceive ∧ s.modem = .waitData then 0x02 else 0) |||
        alertRise s (s.fifo ++ [b]) s.waterLevel
      crcReady := if s.cmd = .calcCrc then false else s.crcReady } := by
  unfold hostPush
  dsimp only
  rw [ite_setErr, fifoPush_of_room, ite_crcReady, withAlerts_eq, risenAlerts_eq]
  exact h

theorem hostPush_of_full (b : Byte) {s : State} (h : 64 ≤ s.fifo.length) :
    hostPush b s = { s with
      err := s.err ||| 0x10 ||| (if s.cmd = .transceive ∧ s.modem = .waitData then 0x80 else 0)
      comIrq := s.comIrq ||| 0x02
      crcReady := if s.cmd = .calcCrc then false else s.crcReady } := by
  have he : ∀ m : Byte, s.err ||| m ||| bufferOvfl = s.err ||| bufferOvfl ||| m := fun m => by
    rw [BitVec.or_assoc, BitVec.or_comm m, BitVec.or_assoc]
  have hi : (s.comIrq ||| if s.cmd = .transceive ∧ s.modem = .waitData then errIRq else 0) ||| errIRq |||
      alertRise s s.fifo s.waterLevel = s.comIrq ||| errIRq := by
    rw [alertRise_self, BitVec.or_assoc s.comIrq]
    split <;> exact BitVec.or_zero
  unfold hostPush
  dsimp only
  rw [ite_setErr, fifoPush_of_full, ite_crcReady, withAlerts_eq, risenAlerts_eq]
  · simp only [setErr, he, hi]
  · exact h

theorem hostPop_of_cons {b : Byte} {bs : List Byte} {s : State} (h : s.fifo = b :: bs) :
    hostPop s = { s with
      busOut := b, draws := s.draws + 1, fifo := bs, comIrq := s.comIrq ||| alertRise s bs s.waterLevel } := by
  unfold hostPop
  rw [h]
  dsimp only
  rw [withAlerts_eq, risenAlerts_eq, fifoDropOldest_fifo, h]
  simp only [fifoDropOldest, answer, h]
  rfl

theorem hostPop_of_nil {s : State} (h : s.fifo = []) :
    hostPop s = { s with busOut := Config.freeBits 8 s.draws, draws := s.draws + 1 } := by
  unfold hostPop
  rw [h, answer, h]

theorem hostFlush_eq (s : State) :
    hostFlush s = { s with
      fifo := [], err := s.err &&& 0xEF, comIrq := s.comIrq ||| alertRise s [] s.waterLevel } := by
  rw [hostFlush, withAlerts_eq, risenAlerts_eq]
  rfl

/-! ### The statements about the FIFO -/

theorem exec_fifoPush (b : Byte) {s : State} (h : BusReady s) : exec (.fifoPush b) s = .next (hostPush b s) :=
  congrArg Host.Outcome.next (busWrite_ready _ h)

theorem exec_fifoPop {s : State} (h : BusReady s) : exec .fifoPop s = .next (hostPop s) :=
  congrArg Host.Outcome.next (busRead_ready _ _ h)

theorem exec_flushBuffer (x : BitVec 7) {s : State} (h : BusReady s) :
    exec (.flushBuffer x) s = .next (hostFlush s) :=
  congrArg Host.Outcome.next (busWrite_ready _ h)

/-- Settles O25, by whether the FIFO has room. -/
theorem fifoPushAppendsOrOverflows : Obligations.FifoPushAppendsOrOverflows := by
  refine fun b s h => ⟨fun room => ?_, fun full => ?_⟩
  · rw [exec_fifoPush b h, hostPush_of_room b room]
  · rw [exec_fifoPush b h, hostPush_of_full b full]

/-- Settles O26, by whether the FIFO holds a byte. -/
theorem fifoPopTakesTheOldest : Obligations.FifoPopTakesTheOldest := by
  refine ⟨fun b bs s h hf => ?_, fun s h hf => ?_⟩
  · rw [exec_fifoPop h, hostPop_of_cons hf]
  · rw [exec_fifoPop h, hostPop_of_nil hf]

/-- Settles O27. -/
theorem flushEmptiesTheFifo : Obligations.FlushEmptiesTheFifo := by
  intro x s h
  rw [exec_flushBuffer x h, hostFlush_eq]

end Sys2Proof.Machine
end

section
/-! OVERHEAT (rules R15, R409): its effect, and that nothing changes ALLOW_OVERHEAT. -/

namespace Sys2Proof.Machine

open Sys2Proof

theorem engineEnabled_overheat (s : State) :
    engineEnabled .overheat s = true ↔
      s.nrst = true ∧ s.powerDown = false ∧ s.allowOverheat = true ∧ s.err.getLsbD 6 = false := by
  simp only [engineEnabled, engineAwake, Bool.and_eq_true, Bool.not_eq_true', and_assoc]

theorem engineStep_overheat {s : State} (hn : s.nrst = true) (hp : s.powerDown = false)
    (ha : s.allowOverheat = true) (ht : s.err.getLsbD 6 = false) : engineStep .overheat s = overheatEffect s :=
  if_pos ((engineEnabled_overheat s).2 ⟨hn, hp, ha, ht⟩)

theorem engineStep_overheat_of_disabled {s : State}
    (h : s.nrst = false ∨ s.allowOverheat = false ∨ s.err.getLsbD 6 = true) : engineStep .overheat s = s := by
  refine engineStep_of_disabled (Bool.eq_false_iff.2 fun he => ?_)
  obtain ⟨hn, _, ha, ht⟩ := (engineEnabled_overheat s).1 he
  rw [hn, ha, ht] at h
  simp at h

/-! ### The parameter stays -/

theorem registerWrite_allowOverheat (a : RegAddr) (v : Byte) (s : State) :
    (registerWrite a v s).allowOverheat = s.allowOverheat := by
  unfold registerWrite
  cases regAt a with
  | command =>
    dsimp only
    rw [commandWrite_frame]
  | fifoData =>
    dsimp only
    rw [hostPush_frame]
  | fifoLevel =>
    dsimp only
    split <;> rfl
  | control =>
    dsimp only
    rw [controlWrite_frame]
  | bitFraming =>
    dsimp only
    rw [bitFramingWrite_frame]
  | comIEn | divIEn | comIrq | divIrq | status2 | waterLevel | coll | mode | txMode | rxMode | txControl | txASK | tMode
  | tPrescaler | tReloadH | tReloadL | outside | error | status1 | crcResultH | crcResultL | tCounterH | tCounterL
  | version | outsideReadOnly | reserved => rfl

theorem releaseResetPin_allowOverheat (s : State) : (releaseResetPin s).allowOverheat = s.allowOverheat := by
  unfold releaseResetPin
  split <;> rfl

theorem HostEffect.allowOverheat_eq {s t : State} (ht : HostEffect s t) : t.allowOverheat = s.allowOverheat := by
  cases ht with
  | popped => rw [hostPop_frame]
  | wrote a v => exact registerWrite_allowOverheat a v s
  | resetReleased => exact releaseResetPin_allowOverheat s
  | ignored | refused | answered | resetAsserted | pinPolled => rfl

theorem engineEffect_allowOverheat (e : EngineStep) (s : State) :
    (engineEffect e s).allowOverheat = s.allowOverheat := by
  cases e with
  | crcByte => rw [engineEffect, crcByteEffect_frame]
  | tx => rw [engineEffect, txEffect_frame]
  | rx => rw [engineEffect, rxEffect_frame]
  | timerExpire => rw [engineEffect, timerExpireEffect_frame]
  | crcDone | overheat | resetDone | wakeDone => rfl

theorem engineStep_allowOverheat (e : EngineStep) (s : State) :
    (engineStep e s).allowOverheat = s.allowOverheat := by
  obtain ⟨_, he⟩ | ⟨_, he⟩ := engineStep_cases e s <;> rw [he]
  exact engineEffect_allowOverheat e s

/-- Settles O53: the effect where the step is enabled, its conditions, and that the parameter stays. -/
theorem overheatSwitchesTheAntennaOff : Obligations.OverheatSwitchesTheAntennaOff := by
  refine ⟨fun s hn hp ha ht => ?_, fun _ h => engineStep_overheat_of_disabled h,
    fun _ _ _ h => (exec_hostEffect h).allowOverheat_eq, engineStep_allowOverheat⟩
  rw [engineStep_overheat hn hp ha ht]
  rfl

end Sys2Proof.Machine
end

section
/-! Which effect an operation has: the write of a byte at an address (the plain row WR, or the row rule R152 gives that
transaction), a move of the reset pin, or neither. `HostEffect` says what an operation can leave;
here the operation stands beside it, for the statements that except some operations. -/

namespace Sys2Proof.Machine

open Sys2Proof

/-! ### The operations as writes (rules R143 to R148, R152) -/

/-- The operation is a bus write of `v` at `a`: the plain row, or the row the transaction decodes to (rule R152). -/
def IsWriteOf (a : RegAddr) (v : Byte) (i : Instr) : Prop := i = .wr a v ∨ i = decodeWrite a v

/-- A write of CommandReg other than by the plain row is a command row. -/
theorem writesCommandReg_decodeWrite (v : Byte) : writesCommandReg (decodeWrite commandReg v) = true := by
  revert v
  decide

/-- A write outside the rows of CommandReg is at another address. -/
theorem IsWriteOf.ne_commandReg {a : RegAddr} {v : Byte} {i : Instr} (h : IsWriteOf a v i)
    (hc : writesCommandReg i = false) : a ≠ commandReg := by
  rintro rfl
  obtain rfl | rfl := h
  · exact Bool.noConfusion (show true = false from hc)
  · exact Bool.noConfusion ((writesCommandReg_decodeWrite v).symm.trans hc)

theorem decodeWrite_comIrq_clear {v : Byte} (h : v.getLsbD 7 = false) :
    decodeWrite comIrqReg v = .irqClear (v.extractLsb' 0 7) := by
  show (if v.getLsbD 7 then _ else _) = _
  rw [h]
  rfl

theorem decodeWrite_divIrq_clear {v : Byte} (h : v.getLsbD 7 = false) :
    decodeWrite divIrqReg v = .divIrqClear (v.extractLsb' 0 7) := by
  show (if v.getLsbD 7 then _ else _) = _
  rw [h]
  rfl

/-- A write of ComIrqReg by an operation that clears no flag has bit 7 set (rule R204). -/
theorem IsWriteOf.sets_comIrq {v : Byte} {i : Instr} (h : IsWriteOf comIrqReg v i) (hc : ∀ m, i ≠ .irqClear m)
    (hw : ∀ d : Byte, d.getLsbD 7 = false → i ≠ .wr 0x04 d) : v.getLsbD 7 = true := by
  refine Bool.of_not_eq_false fun hv => ?_
  obtain he | he := h
  · exact hw v hv he
  · exact hc _ (he.trans (decodeWrite_comIrq_clear hv))

/-- A write of DivIrqReg by an operation that clears no flag has bit 7 set (rule R205). -/
theorem IsWriteOf.sets_divIrq {v : Byte} {i : Instr} (h : IsWriteOf divIrqReg v i) (hc : ∀ m, i ≠ .divIrqClear m)
    (hw : ∀ d : Byte, d.getLsbD 7 = false → i ≠ .wr 0x05 d) : v.getLsbD 7 = true := by
  refine Bool.of_not_eq_false fun hv => ?_
  obtain he | he := h
  · exact hw v hv he
  · exact hc _ (he.trans (decodeWrite_divIrq_clear hv))

/-! ### The effect of an operation, with the operation -/

/-- What an operation leaves of `s` that writes no register and leaves the reset pin alone. -/
inductive QuietEffect (s : State) : State → Prop where
  | ignored : QuietEffect s s
  | refused (r : RefuseReason) : QuietEffect s (refuse r s)
  | answered (v : Byte) : QuietEffect s (answer v s)
  | popped : QuietEffect s (hostPop s)
  | pinPolled : QuietEffect s { s with pinOut := irqActive s }

/-- What the operation `i` can leave of `s`: the write it is, its move of the reset pin, or a quiet effect. -/
inductive RowEffect (i : Instr) (s : State) : State → Prop where
  | wrote (a : RegAddr) (v : Byte) (row : IsWriteOf a v i) (ready : BusReady s) : RowEffect i s (registerWrite a v s)
  | resetAsserted (row : i = .assertReset) : RowEffect i s (assertResetPin s)
  | resetReleased (row : i = .releaseReset) : RowEffect i s (releaseResetPin s)
  | quiet {t : State} (q : QuietEffect s t) : RowEffect i s t

theorem IsWriteOf.rowEffect {a : RegAddr} {v : Byte} {i : Instr} {f : State → State} {s : State}
    (row : IsWriteOf a v i) (h : registerWrite a v s = f s) : RowEffect i s (busWrite f s) := by
  obtain ⟨_, he⟩ | ⟨_, _, he⟩ | ⟨hr, he⟩ := busWrite_cases f s
  all_goals rw [he]
  · exact .quiet (.refused _)
  · exact .quiet .ignored
  · exact h ▸ .wrote a v row hr

/-- The row of a command code. -/
theorem commandRow_rowEffect {i : Instr} {r p : Bool} {c : BitVec 4} (row : decodeCommand (cmdByte r p c) = i)
    (s : State) : RowEffect i s (busWrite (commandWrite r p c) s) :=
  IsWriteOf.rowEffect (.inr row.symm : IsWriteOf commandReg (cmdByte r p c) i) (registerWrite_cmdByte r p c s)

theorem busRead_quietEffect {f : State → State} {s : State} (a : RegAddr) (h : QuietEffect s (f s)) :
    QuietEffect s (busRead a f s) := by
  obtain ⟨_, he⟩ | ⟨_, he⟩ | ⟨_, he⟩ := busRead_cases a f s
  · exact he ▸ .refused _
  · exact he ▸ .answered _
  · exact he ▸ h

theorem registerRead_quietEffect (a : RegAddr) (s : State) : QuietEffect s (registerRead a s) := by
  obtain he | ⟨v, he⟩ := registerRead_cases a s
  · exact he ▸ .popped
  · exact he ▸ .answered v

theorem busBadAddr_quietEffect (s : State) : QuietEffect s (busBadAddr s) := by
  obtain ⟨_, he⟩ | ⟨_, he⟩ := busBadAddr_cases s <;> exact he ▸ .refused _

theorem pollPin_quietEffect (s : State) : QuietEffect s (pollPin s) := by
  unfold pollPin
  split
  · exact .refused _
  · exact .pinPolled

/-- Every operation has a next state, by the effect of its row. -/
theorem exec_row (i : Instr) (s : State) : ∃ t, exec i s = .next t ∧ RowEffect i s t := by
  cases i with
  | rd a => exact ⟨_, rfl, .quiet (busRead_quietEffect a (registerRead_quietEffect a s))⟩
  | fifoPop => exact ⟨_, rfl, .quiet (busRead_quietEffect fifoDataReg .popped)⟩
  | badAddr | badAddr6 => exact ⟨_, rfl, .quiet (busBadAddr_quietEffect s)⟩
  | irqPin => exact ⟨_, rfl, .quiet (pollPin_quietEffect s)⟩
  | assertReset => exact ⟨_, rfl, .resetAsserted rfl⟩
  | releaseReset => exact ⟨_, rfl, .resetReleased rfl⟩
  | wr a d => exact ⟨_, rfl, IsWriteOf.rowEffect (.inl rfl) rfl⟩
  | fifoPush d => exact ⟨_, rfl, IsWriteOf.rowEffect (a := fifoDataReg) (.inr rfl) rfl⟩
  | idle r | mem r | genRandId r | calcCrc r | transmit r | reserved5 r | reserved6 r | noCmdChange r | receive r
  | reserved9 r | reservedA r | reservedB r | transceive r | reservedD r | mfAuthent r | softReset r =>
    exact ⟨_, rfl, commandRow_rowEffect (by revert r; decide) s⟩
  | powerDown r c => exact ⟨_, rfl, commandRow_rowEffect (by revert r c; decide) s⟩
  | irqSet m | irqClear m =>
    exact ⟨_, rfl, IsWriteOf.rowEffect (.inr (by revert m; decide)) (registerWrite_comIrq _ m s)⟩
  | divIrqSet m | divIrqClear m =>
    exact ⟨_, rfl, IsWriteOf.rowEffect (.inr (by revert m; decide)) (registerWrite_divIrq _ m s)⟩
  | flushBuffer x => exact ⟨_, rfl, IsWriteOf.rowEffect (.inr (by revert x; decide)) (registerWrite_flush x s)⟩
  | tStopNow x =>
    exact ⟨_, rfl, IsWriteOf.rowEffect (a := controlReg) (v := 1#1 ++ x) (.inr (by revert x; decide)) rfl⟩
  | tStartNow x =>
    exact ⟨_, rfl, IsWriteOf.rowEffect (a := controlReg) (v := 1#2 ++ x) (.inr (by revert x; decide)) rfl⟩
  | startSend a l =>
    exact ⟨_, rfl, IsWriteOf.rowEffect (.inr (by revert a l; decide)) (registerWrite_bfByte true a l s)⟩

theorem exec_rowEffect {i : Instr} {s t : State} (h : exec i s = .next t) : RowEffect i s t := by
  obtain ⟨t', he, ht⟩ := exec_row i s
  obtain rfl : t' = t := Host.Outcome.next.inj (he.symm.trans h)
  exact ht

end Sys2Proof.Machine
end

section
/-! What only some operations change: the active command (rule R36) and the request flags, which stay set until HOST or
a reset clears them (rules R40, R41, R417). -/

namespace Sys2Proof.Machine

open Sys2Proof

/-! ### The active command (rule R36) -/

theorem regAt_command (a : RegAddr) : regAt a = .command ↔ a = commandReg := by revert a; decide

theorem regAt_comIrq (a : RegAddr) : regAt a = .comIrq ↔ a = comIrqReg := by revert a; decide

theorem regAt_divIrq (a : RegAddr) : regAt a = .divIrq ↔ a = divIrqReg := by revert a; decide

theorem registerWrite_cmd {a : RegAddr} (v : Byte) (s : State) (h : a ≠ commandReg) :
    (registerWrite a v s).cmd = s.cmd := by
  unfold registerWrite
  cases hr : regAt a with
  | command => exact absurd ((regAt_command a).1 hr) h
  | fifoData =>
    dsimp only
    rw [hostPush_frame]
  | fifoLevel =>
    dsimp only
    split <;> rfl
  | control =>
    dsimp only
    rw [controlWrite_frame]
  | bitFraming =>
    dsimp only
    rw [bitFramingWrite_frame]
  | comIEn | divIEn | comIrq | divIrq | status2 | waterLevel | coll | mode | txMode | rxMode | txControl | txASK | tMode
  | tPrescaler | tReloadH | tReloadL | outside | error | status1 | crcResultH | crcResultL | tCounterH | tCounterL
  | version | outsideReadOnly | reserved => rfl

theorem QuietEffect.cmd_eq {s t : State} (q : QuietEffect s t) : t.cmd = s.cmd := by
  cases q with
  | popped => rw [hostPop_frame]
  | ignored | refused | answered | pinPolled => rfl

theorem engineEffect_cmd {e : EngineStep} (s : State) (h : e ≠ .resetDone) : (engineEffect e s).cmd = s.cmd := by
  cases e with
  | crcByte => rw [engineEffect, crcByteEffect_frame]
  | tx => rw [engineEffect, txEffect_frame]
  | rx => rw [engineEffect, rxEffect_frame]
  | timerExpire => rw [engineEffect, timerExpireEffect_frame]
  | resetDone => exact absurd rfl h
  | crcDone | overheat | wakeDone => rfl

/-- Settles O37, by the effect of the operation's row and by the step that is taken. -/
theorem onlyCommandsAndResetsChangeTheCommand : Obligations.OnlyCommandsAndResetsChangeTheCommand := by
  refine ⟨fun i s t h hc ha hr => ?host, fun e s h => ?engine⟩
  case host =>
    cases exec_rowEffect h with
    | wrote a v row => exact registerWrite_cmd v s (row.ne_commandReg hc)
    | resetAsserted row => exact absurd row ha
    | resetReleased row => exact absurd row hr
    | quiet q => exact q.cmd_eq
  case engine =>
    obtain ⟨_, he⟩ | ⟨_, he⟩ := engineStep_cases e s <;> rw [he]
    exact engineEffect_cmd s h

/-! ### The request flags of ComIrqReg (rule R40) -/

/-- Every request flag of ComIrqReg that is set in `s` is set in `t`. -/
def ComIrqKept (s t : State) : Prop := t.comIrq &&& s.comIrq = s.comIrq

theorem ComIrqKept.of_eq {s t : State} (h : t.comIrq = s.comIrq) : ComIrqKept s t := by
  rw [ComIrqKept, h, BitVec.and_self]

/-- Flags that are set beside those that stand. -/
theorem ComIrqKept.of_or {s t : State} (m : BitVec 7) (h : t.comIrq = s.comIrq ||| m) : ComIrqKept s t := by
  rw [ComIrqKept, h]
  ext i
  simp +contextual

theorem ComIrqKept.trans {s t u : State} (h : ComIrqKept s t) (h' : ComIrqKept t u) : ComIrqKept s u := by
  unfold ComIrqKept at *
  rw [← h, ← BitVec.and_assoc, h']

theorem comIrqKept_setErr (m : Byte) (s : State) : ComIrqKept s (setErr m s) := .of_or errIRq rfl

theorem comIrqKept_withAlerts {old s t : State} (h : ComIrqKept s t) : ComIrqKept s (withAlerts old t) :=
  h.trans (.of_or (risenAlerts old t) rfl)

theorem comIrqKept_fifoPush (b : Byte) (s : State) : ComIrqKept s (fifoPush b s) := by
  obtain ⟨_, he⟩ | ⟨_, he⟩ := fifoPush_cases b s <;> rw [he]
  · exact .of_eq rfl
  · exact comIrqKept_setErr _ s

theorem comIrqKept_fifoPushAll (bs : List Byte) (s : State) : ComIrqKept s (fifoPushAll bs s) := by
  induction bs generalizing s with
  | nil => exact .of_eq rfl
  | cons b bs ih => exact (comIrqKept_fifoPush b s).trans (ih (fifoPush b s))

theorem comIrqKept_hostPush (b : Byte) (s : State) : ComIrqKept s (hostPush b s) := by
  have h₁ : ComIrqKept s (if s.cmd = .transceive ∧ s.modem = .waitData then setErr wrErr s else s) := by
    split
    · exact comIrqKept_setErr _ s
    · exact .of_eq rfl
  refine comIrqKept_withAlerts ?_
  split <;> exact h₁.trans (comIrqKept_fifoPush b _)

theorem comIrqKept_hostPop (s : State) : ComIrqKept s (hostPop s) := by
  unfold hostPop
  split
  · exact .of_eq rfl
  · exact comIrqKept_withAlerts (t := fifoDropOldest s) (.of_eq rfl)

theorem comIrqKept_registerWrite {a : RegAddr} {v : Byte} (s : State) (h : a = comIrqReg → v.getLsbD 7 = true) :
    ComIrqKept s (registerWrite a v s) := by
  unfold registerWrite
  cases hr : regAt a with
  | command => exact .of_eq (by dsimp only; rw [commandWrite_frame])
  | comIrq =>
    refine .of_or (v.extractLsb' 0 7) ?_
    show (if v.getLsbD 7 then _ else _) = _
    rw [h ((regAt_comIrq a).1 hr)]
    rfl
  | fifoData => exact comIrqKept_hostPush v s
  | fifoLevel =>
    dsimp only
    split
    · exact comIrqKept_withAlerts (t := fifoFlush s) (.of_eq rfl)
    · exact .of_eq rfl
  | waterLevel => exact comIrqKept_withAlerts (.of_eq rfl)
  | control => exact .of_eq (by dsimp only; rw [controlWrite_frame])
  | bitFraming => exact .of_eq (by dsimp only; rw [bitFramingWrite_frame])
  | comIEn | divIEn | divIrq | status2 | coll | mode | txMode | rxMode | txControl | txASK | tMode | tPrescaler
  | tReloadH | tReloadL | outside | error | status1 | crcResultH | crcResultL | tCounterH | tCounterL | version
  | outsideReadOnly | reserved => exact .of_eq rfl

theorem QuietEffect.comIrqKept {s t : State} (q : QuietEffect s t) : ComIrqKept s t := by
  cases q with
  | popped => exact comIrqKept_hostPop s
  | ignored | refused | answered | pinPolled => exact .of_eq rfl

theorem comIrqKept_collision (j : Option Nat) (s : State) : ComIrqKept s (collision j s) := by
  cases j with
  | none => exact .of_eq rfl
  | some j =>
    unfold collision
    dsimp only
    split <;> exact comIrqKept_setErr collErr s

theorem comIrqKept_flagReply (r : Reply) (s : State) : ComIrqKept s (flagReply r s) := by
  have h₁ := comIrqKept_collision (firstCollision r.syms) s
  have h₂ : ComIrqKept s (if r.parityErr then setErr parityErr (collision (firstCollision r.syms) s)
      else collision (firstCollision r.syms) s) := by
    split
    · exact h₁.trans (comIrqKept_setErr _ _)
    · exact h₁
  unfold flagReply
  dsimp only
  split
  · exact h₂.trans (comIrqKept_setErr _ _)
  · exact h₂

theorem comIrqKept_storeReply (r : Reply) (s : State) : ComIrqKept s (storeReply r s) := by
  have h₁ : ComIrqKept s (bumpDraws (8 * (receivedBytes s r).length) s) := .of_eq rfl
  exact (h₁.trans (comIrqKept_fifoPushAll (receivedBytes s r) _)).trans (.of_eq rfl)

theorem comIrqKept_stopTimerOnReply (r : Reply) (s : State) : ComIrqKept s (stopTimerOnReply r s) := by
  unfold stopTimerOnReply
  split <;> exact .of_eq rfl

theorem comIrqKept_rxEffect (s : State) : ComIrqKept s (rxEffect s) := by
  unfold rxEffect
  split
  · exact .of_eq rfl
  next r _ =>
    have h₀ : ComIrqKept s { s with pendingResp := none } := .of_eq rfl
    have h₁ := (h₀.trans (comIrqKept_storeReply r _)).trans (comIrqKept_flagReply r _)
    have h₂ := h₁.trans (comIrqKept_stopTimerOnReply r _)
    generalize stopTimerOnReply r _ = s₁ at h₂ ⊢
    exact comIrqKept_withAlerts (h₂.trans (.of_or rxIRq rfl))

theorem comIrqKept_txEffect (s : State) : ComIrqKept s (txEffect s) := by
  unfold txEffect
  split
  · exact .of_eq rfl
  · split
    · exact .of_eq rfl
    · refine comIrqKept_withAlerts (.of_or txIRq ?_)
      rw [awaitReply_frame]
      rfl

theorem comIrqKept_crcByteEffect (s : State) : ComIrqKept s (crcByteEffect s) := by
  unfold crcByteEffect
  split
  · exact .of_eq rfl
  · exact comIrqKept_withAlerts (.of_eq rfl)

theorem comIrqKept_engineEffect {e : EngineStep} (s : State) (h : e ≠ .resetDone) :
    ComIrqKept s (engineEffect e s) := by
  cases e with
  | crcByte => exact comIrqKept_crcByteEffect s
  | tx => exact comIrqKept_txEffect s
  | rx => exact comIrqKept_rxEffect s
  | timerExpire => exact .of_or timerIRq (by rw [engineEffect, timerExpireEffect_frame])
  | overheat => exact comIrqKept_setErr tempErr s
  | resetDone => exact absurd rfl h
  | crcDone | wakeDone => exact .of_eq rfl

/-! ### The request flags of DivIrqReg (rule R41) -/

/-- Every request flag of DivIrqReg that is set in `s` is set in `t`. -/
structure DivIrqKept (s t : State) : Prop where
  crc : s.crcIrq = true → t.crcIrq = true
  mfinAct : s.mfinActIrq = true → t.mfinActIrq = true

theorem DivIrqKept.of_eq {s t : State} (hc : t.crcIrq = s.crcIrq) (hm : t.mfinActIrq = s.mfinActIrq) :
    DivIrqKept s t :=
  ⟨hc.trans, hm.trans⟩

theorem divIrqKept_divIrqWrite (m : BitVec 7) (s : State) : DivIrqKept s (divIrqWrite true m s) := by
  constructor <;> intro h <;> simp [divIrqWrite, h]

theorem divIrqKept_registerWrite {a : RegAddr} {v : Byte} (s : State) (h : a = divIrqReg → v.getLsbD 7 = true) :
    DivIrqKept s (registerWrite a v s) := by
  unfold registerWrite
  cases hr : regAt a with
  | command => rw [commandWrite_frame]; exact .of_eq rfl rfl
  | divIrq =>
    dsimp only
    rw [h ((regAt_divIrq a).1 hr)]
    exact divIrqKept_divIrqWrite _ s
  | fifoData => dsimp only; rw [hostPush_frame]; exact .of_eq rfl rfl
  | fifoLevel =>
    dsimp only
    split <;> exact .of_eq rfl rfl
  | control => dsimp only; rw [controlWrite_frame]; exact .of_eq rfl rfl
  | bitFraming => dsimp only; rw [bitFramingWrite_frame]; exact .of_eq rfl rfl
  | comIEn | divIEn | comIrq | status2 | waterLevel | coll | mode | txMode | rxMode | txControl | txASK | tMode
  | tPrescaler | tReloadH | tReloadL | outside | error | status1 | crcResultH | crcResultL | tCounterH | tCounterL
  | version | outsideReadOnly | reserved => exact .of_eq rfl rfl

theorem QuietEffect.divIrqKept {s t : State} (q : QuietEffect s t) : DivIrqKept s t := by
  cases q with
  | popped => rw [hostPop_frame]; exact .of_eq rfl rfl
  | ignored | refused | answered | pinPolled => exact .of_eq rfl rfl

theorem divIrqKept_engineEffect {e : EngineStep} (s : State) (h : e ≠ .resetDone) :
    DivIrqKept s (engineEffect e s) := by
  cases e with
  | crcByte => rw [engineEffect, crcByteEffect_frame]; exact .of_eq rfl rfl
  | crcDone => exact ⟨fun _ => rfl, id⟩
  | tx => rw [engineEffect, txEffect_frame]; exact .of_eq rfl rfl
  | rx => rw [engineEffect, rxEffect_frame]; exact .of_eq rfl rfl
  | timerExpire => rw [engineEffect, timerExpireEffect_frame]; exact .of_eq rfl rfl
  | resetDone => exact absurd rfl h
  | overheat | wakeDone => exact .of_eq rfl rfl

/-- Settles O23, by the step that is taken and by the effect of the operation's row. -/
theorem requestFlagsAreSticky : Obligations.RequestFlagsAreSticky := by
  refine ⟨fun e s h => ?engine, fun i s t h hr => ⟨fun hc hw => ?com, fun hc hw => ?div⟩⟩
  case engine =>
    obtain ⟨_, he⟩ | ⟨_, he⟩ := engineStep_cases e s <;> rw [he]
    · obtain ⟨hcrc, hmfin⟩ := divIrqKept_engineEffect s h
      exact ⟨comIrqKept_engineEffect s h, hcrc, hmfin⟩
    · exact ⟨BitVec.and_self, id, id⟩
  case com =>
    show ComIrqKept s t
    cases exec_rowEffect h with
    | wrote a v row => exact comIrqKept_registerWrite s fun ha => (ha ▸ row).sets_comIrq hc hw
    | resetAsserted => exact .of_eq rfl
    | resetReleased row => exact absurd row hr
    | quiet q => exact q.comIrqKept
  case div =>
    suffices hk : DivIrqKept s t from ⟨hk.crc, hk.mfinAct⟩
    cases exec_rowEffect h with
    | wrote a v row => exact divIrqKept_registerWrite s fun ha => (ha ▸ row).sets_divIrq hc hw
    | resetAsserted => exact .of_eq rfl rfl
    | resetReleased row => exact absurd row hr
    | quiet q => exact q.divIrqKept

end Sys2Proof.Machine
end

section
/-! The refusal mark and the history (rules R69, R71, R74): no operation and no step clears the mark or takes an event
back. -/

namespace Sys2Proof.Machine

open Sys2Proof

/-- A marked run keeps its mark with the reason, and the history only grows. -/
structure RecordKept (s t : State) : Prop where
  mark : ∀ r, s.refused = some r → t.refused = some r
  hist : s.hist <+: t.hist

theorem RecordKept.of_eq {s t : State} (hr : t.refused = s.refused) (hh : t.hist = s.hist) : RecordKept s t :=
  ⟨fun _ h => hr.trans h, [], (List.append_nil _).trans hh.symm⟩

theorem RecordKept.of_event {s t : State} (e : Event) (hr : t.refused = s.refused) (hh : t.hist = s.hist ++ [e]) :
    RecordKept s t :=
  ⟨fun _ h => hr.trans h, [e], hh.symm⟩

theorem RecordKept.refl (s : State) : RecordKept s s := .of_eq rfl rfl

theorem RecordKept.trans {s t u : State} (h : RecordKept s t) (h' : RecordKept t u) : RecordKept s u :=
  ⟨fun r hr => h'.mark r (h.mark r hr), h.hist.trans h'.hist⟩

theorem recordKept_refuse (r : RefuseReason) (s : State) : RecordKept s (refuse r s) :=
  ⟨fun _ h => by rw [refuse_of_marked r h]; exact h, [.refused r], rfl⟩

/-! ### The operations -/

theorem recordKept_timerStart (s : State) : RecordKept s (timerStart s) := by
  unfold timerStart
  split
  · exact recordKept_refuse _ s
  · exact .of_eq rfl rfl

theorem recordKept_controlWrite (v : Byte) (s : State) : RecordKept s (controlWrite v s) := by
  unfold controlWrite
  split
  · exact .of_eq rfl rfl
  · split
    · exact recordKept_timerStart s
    · exact .refl s

theorem recordKept_startCommandEngine (c : Cmd) (s : State) : RecordKept s (startCommandEngine c s) := by
  cases c with
  | idle | transceive | softReset => exact .of_eq rfl rfl
  | calcCrc =>
    unfold startCommandEngine startCalcCrc
    dsimp only
    split
    · exact recordKept_refuse _ s
    · exact .of_eq rfl rfl

theorem recordKept_writeCommandCode (c : BitVec 4) (s : State) : RecordKept s (writeCommandCode c s) := by
  have h₁ : RecordKept s (clearErrAtStart (stopCommand s)) := .of_eq rfl rfl
  unfold writeCommandCode
  split
  · exact .refl s
  · exact recordKept_refuse _ s
  · exact recordKept_refuse _ s
  next k _ => exact h₁.trans (recordKept_startCommandEngine k _)

theorem recordKept_commandWhilePoweredDown (p : Bool) (c : BitVec 4) (s : State) :
    RecordKept s (commandWhilePoweredDown p c s) := by
  unfold commandWhilePoweredDown
  split
  · exact recordKept_refuse _ s
  · split <;> exact .of_eq rfl rfl

theorem recordKept_enterPowerDown (c : BitVec 4) (s : State) : RecordKept s (enterPowerDown c s) := by
  unfold enterPowerDown
  split
  · exact recordKept_refuse _ s
  · dsimp only
    split <;> exact .of_eq rfl rfl

theorem recordKept_commandWrite (r p : Bool) (c : BitVec 4) (s : State) : RecordKept s (commandWrite r p c s) := by
  have h₁ : RecordKept s (setRcvOff r s) := .of_eq rfl rfl
  unfold commandWrite
  dsimp only
  split
  · exact h₁.trans (recordKept_commandWhilePoweredDown p c _)
  · split
    · exact h₁.trans (recordKept_enterPowerDown c _)
    · exact h₁.trans (recordKept_writeCommandCode c _)

theorem recordKept_registerWrite (a : RegAddr) (v : Byte) (s : State) : RecordKept s (registerWrite a v s) := by
  unfold registerWrite
  cases regAt a with
  | command => exact recordKept_commandWrite _ _ _ s
  | control => exact recordKept_controlWrite v s
  | fifoData =>
    dsimp only
    rw [hostPush_frame]
    exact .of_eq rfl rfl
  | fifoLevel =>
    dsimp only
    split <;> exact .of_eq rfl rfl
  | bitFraming =>
    dsimp only
    rw [bitFramingWrite_frame]
    exact .of_eq rfl rfl
  | comIEn | divIEn | comIrq | divIrq | status2 | waterLevel | coll | mode | txMode | rxMode | txControl | txASK | tMode
  | tPrescaler | tReloadH | tReloadL | outside | error | status1 | crcResultH | crcResultL | tCounterH | tCounterL
  | version | outsideReadOnly | reserved => exact .of_eq rfl rfl

theorem recordKept_releaseResetPin (s : State) : RecordKept s (releaseResetPin s) := by
  unfold releaseResetPin
  split
  · exact .refl s
  · exact .of_event (.reset .hard) rfl rfl

theorem HostEffect.recordKept {s t : State} (ht : HostEffect s t) : RecordKept s t := by
  cases ht with
  | refused r => exact recordKept_refuse r s
  | popped =>
    rw [hostPop_frame]
    exact .of_eq rfl rfl
  | wrote a v => exact recordKept_registerWrite a v s
  | resetReleased => exact recordKept_releaseResetPin s
  | ignored | answered | resetAsserted | pinPolled => exact .of_eq rfl rfl

/-! ### The ENGINE steps -/

theorem recordKept_crcByteEffect (s : State) : RecordKept s (crcByteEffect s) := by
  unfold crcByteEffect
  split
  · exact .refl s
  next b _ _ => exact .of_event (.crcByte b) rfl rfl

theorem recordKept_awaitReply (s : State) : RecordKept s (awaitReply s) := by
  have h₁ : RecordKept s { fieldMoved s with pendingResp := fieldReply s, modem := .waitData } := by
    rw [fieldMoved_frame]
    exact .of_eq rfl rfl
  unfold awaitReply
  dsimp only
  split
  · exact h₁.trans (recordKept_timerStart _)
  · exact h₁

theorem recordKept_txEffect (s : State) : RecordKept s (txEffect s) := by
  have h₁ : RecordKept s (receiverStartUp (transmitFrame s)) :=
    .of_event (.tx (assemble s.fifo s.txLastBits)) rfl rfl
  unfold txEffect
  split
  · exact recordKept_refuse _ s
  · split
    · exact recordKept_refuse _ s
    · exact (h₁.trans (recordKept_awaitReply _)).trans (.of_eq rfl rfl)

theorem recordKept_rxEffect (s : State) : RecordKept s (rxEffect s) := by
  unfold rxEffect
  split
  · exact .refl s
  next r _ =>
    refine .of_event (.rx r) ?_ ?_
    all_goals
      rw [withAlerts_eq]
      dsimp only
      rw [stopTimerOnReply_frame, flagReply_frame, storeReply_frame]
      rfl

theorem recordKept_engineEffect (e : EngineStep) (s : State) : RecordKept s (engineEffect e s) := by
  cases e with
  | crcByte => exact recordKept_crcByteEffect s
  | tx => exact recordKept_txEffect s
  | rx => exact recordKept_rxEffect s
  | timerExpire =>
    rw [engineEffect, timerExpireEffect_frame]
    exact .of_event .timerExpire rfl rfl
  | overheat => exact .of_event .overheat rfl rfl
  | resetDone => exact .of_event (.reset .soft) rfl rfl
  | crcDone | wakeDone => exact .of_eq rfl rfl

theorem recordKept_engineStep (e : EngineStep) (s : State) : RecordKept s (engineStep e s) := by
  obtain ⟨_, he⟩ | ⟨_, he⟩ := engineStep_cases e s <;> rw [he]
  · exact recordKept_engineEffect e s
  · exact .refl s

/-- What is kept, in the words of the statement. -/
theorem RecordKept.marked_and_grown {s t : State} (h : RecordKept s t) :
    (∀ r, s.refused = some r → t.refused = some r) ∧ ∃ es : List Event, t.hist = s.hist ++ es := by
  obtain ⟨es, he⟩ := h.hist
  exact ⟨h.mark, es, he.symm⟩

/-- Settles O55. -/
theorem refusalMarkAndHistorySurvive : Obligations.RefusalMarkAndHistorySurvive :=
  ⟨fun _ _ _ h => (exec_hostEffect h).recordKept.marked_and_grown,
    fun e s => (recordKept_engineStep e s).marked_and_grown⟩

end Sys2Proof.Machine
end

section
/-! The transmit step (rules R309 to R312, R412, R426) with an admitted configuration and a FIFO that is not empty. -/

namespace Sys2Proof.Machine

open Sys2Proof

/-! ### The conditions of the step -/

theorem engineStep_of_enabled {e : EngineStep} {s : State} (h : engineEnabled e s = true) :
    engineStep e s = engineEffect e s :=
  if_pos h

theorem engineEnabled_tx (s : State) :
    engineEnabled .tx s = true ↔ EngineReady s ∧ s.cmd = .transceive ∧ s.modem = .waitStart ∧ s.txReq = true := by
  simp only [engineEnabled, Bool.and_eq_true, beq_iff_eq, engineRuns_iff, and_assoc]

theorem engineStep_tx {s : State} (h : EngineReady s) (hc : s.cmd = .transceive) (hm : s.modem = .waitStart)
    (hq : s.txReq = true) : engineStep .tx s = txEffect s :=
  engineStep_of_enabled ((engineEnabled_tx s).2 ⟨h, hc, hm, hq⟩)

theorem txMode_admitted (m : Byte) :
    (m.getLsbD 7 == false && m.extractLsb' 4 3 == 0 && m.getLsbD 3 == false) = decide (m &&& 0xF8 = 0) := by
  revert m
  decide

theorem rxMode_admitted (m : Byte) :
    (m.getLsbD 7 == false && m.extractLsb' 4 3 == 0 && m.getLsbD 3 == false && m.getLsbD 2 == false) =
      decide (m &&& 0xFC = 0) := by
  revert m
  decide

theorem tGated_eq_zero (s : State) : tGated s = 0 ↔ s.tMode &&& 0x60 = 0 := by
  unfold tGated
  generalize s.tMode = m
  revert m
  decide

/-- The admitted configuration (rule R309) by the masks of its registers. -/
theorem radioAdmitted_iff (s : State) :
    radioAdmitted s = true ↔
      s.txMode &&& 0xF8 = 0 ∧ s.rxMode &&& 0xFC = 0 ∧ (s.tMode.getLsbD 7 = true → s.tMode &&& 0x60 = 0) := by
  have he : radioAdmitted s =
      ((s.txMode.getLsbD 7 == false && s.txMode.extractLsb' 4 3 == 0 && s.txMode.getLsbD 3 == false) &&
        (s.rxMode.getLsbD 7 == false && s.rxMode.extractLsb' 4 3 == 0 && s.rxMode.getLsbD 3 == false &&
          s.rxMode.getLsbD 2 == false) && (!tAuto s || tGated s == 0)) := by
    simp only [radioAdmitted, Bool.and_assoc]
  rw [he, txMode_admitted, rxMode_admitted]
  simp only [Bool.and_eq_true, Bool.or_eq_true, Bool.not_eq_true', decide_eq_true_eq, beq_iff_eq, tGated_eq_zero, tAuto,
    and_assoc, ← Bool.not_eq_true, ← Decidable.imp_iff_not_or]

theorem txEffect_of_admitted {s : State} (ha : radioAdmitted s = true) (hf : s.fifo ≠ []) :
    txEffect s = withAlerts s (awaitReply (receiverStartUp (transmitFrame s))) := by
  unfold txEffect
  rw [if_neg (by simp [ha]), if_neg hf]

/-! ### FIELD's choice and the wait -/

/-- FIELD's choice and what is left of the agents' inputs, for a choice that stands ready and for a free one. -/
theorem fieldMoved_of_choice {s : State} {choice : Option Reply} {field' : List (Option Reply)} {draws' : Nat}
    (h : (s.field = choice :: field' ∧ draws' = s.draws) ∨
      (s.field = [] ∧ field' = [] ∧ choice = Config.freeReply s.draws ∧ draws' = s.draws + 1)) :
    fieldChoice s = choice ∧ fieldMoved s = { s with field := field', draws := draws' } := by
  obtain ⟨hf, rfl⟩ | ⟨hf, rfl, rfl, rfl⟩ := h
  · simp only [fieldChoice, fieldMoved, hf, and_self]
  · simp only [fieldChoice, fieldMoved, hf, bumpDraws, and_self]

/-- Both antenna drivers are on (rule R54). -/
theorem antennaOn_eq (s : State) : antennaOn s = decide (s.txControl &&& 0x03 = 0x03) := by
  unfold antennaOn
  generalize s.txControl = v
  revert v
  decide

/-- On a chip that is on, the RF field is there where the antenna is. -/
theorem fieldOn_of_ready {s : State} (h : EngineReady s) : fieldOn s = antennaOn s := by
  rw [fieldOn, h.awake, h.released, Bool.not_false, Bool.and_true, Bool.and_true]

theorem fieldReply_of_ready {s : State} (h : EngineReady s) :
    fieldReply s = if s.txControl &&& 0x03 = 0x03 ∧ s.rcvOff = false then fieldChoice s else none := by
  rw [fieldReply, fieldOn_of_ready h, antennaOn_eq]
  simp only [Bool.and_eq_true, decide_eq_true_eq, Bool.not_eq_true']

theorem timerStart_of_ungated {s : State} (h : s.tMode &&& 0x60 = 0) :
    timerStart s = { s with tCounter := s.tReload, tRunning := true } := by
  unfold timerStart
  rw [if_neg (not_not_intro ((tGated_eq_zero s).2 h))]

/-- The start of the timer that TAuto makes (rule R426), as one equation of its two fields. -/
theorem ite_timerStart {s : State} (h : s.tMode.getLsbD 7 = true → s.tMode &&& 0x60 = 0) :
    (if s.tMode.getLsbD 7 then timerStart s else s) = { s with
      tCounter := if s.tMode.getLsbD 7 = true then s.tReload else s.tCounter
      tRunning := if s.tMode.getLsbD 7 = true then true else s.tRunning } := by
  cases ht : s.tMode.getLsbD 7 with
  | true => exact timerStart_of_ungated (h ht)
  | false => rfl

theorem awaitReply_of_choice {s : State} {choice : Option Reply} {field' : List (Option Reply)} {draws' : Nat}
    (hr : EngineReady s) (ht : s.tMode.getLsbD 7 = true → s.tMode &&& 0x60 = 0)
    (h : (s.field = choice :: field' ∧ draws' = s.draws) ∨
      (s.field = [] ∧ field' = [] ∧ choice = Config.freeReply s.draws ∧ draws' = s.draws + 1)) :
    awaitReply s = { s with
      field := field', draws := draws'
      pendingResp := if s.txControl &&& 0x03 = 0x03 ∧ s.rcvOff = false then choice else none
      modem := .waitData
      tCounter := if s.tMode.getLsbD 7 = true then s.tReload else s.tCounter
      tRunning := if s.tMode.getLsbD 7 = true then true else s.tRunning } := by
  obtain ⟨hc, hm⟩ := fieldMoved_of_choice h
  unfold awaitReply tAuto
  rw [hm, fieldReply_of_ready hr, hc]
  exact ite_timerStart (s := { s with
    field := field', draws := draws', modem := .waitData
    pendingResp := if s.txControl &&& 0x03 = 0x03 ∧ s.rcvOff = false then choice else none }) ht

/-- The transmission and receiver start-up, field by field (rules R310, R412 (b)). -/
theorem receiverStartUp_transmitFrame (s : State) :
    receiverStartUp (transmitFrame s) = { s with
      fifo := [], txReq := false, hist := s.hist ++ [.tx (assemble s.fifo s.txLastBits)]
      comIrq := s.comIrq ||| 0x40, err := s.err &&& 0xF0
      collPosNotValid := true, collPos := Config.freeBits 5 s.draws, draws := s.draws + 1 } := rfl

/-- Settles O45: the transmission, receiver start-up, and the wait with FIELD's choice. -/
theorem transmitStep : Obligations.TransmitStep := by
  intro s choice field' draws' hr hc hm hq hf htx hrx ht hchoice
  have hr' : EngineReady (receiverStartUp (transmitFrame s)) := ⟨hr.released, hr.settled, hr.awake⟩
  rw [engineStep_tx hr hc hm hq, txEffect_of_admitted ((radioAdmitted_iff s).2 ⟨htx, hrx, ht⟩) hf,
    awaitReply_of_choice hr' ht hchoice, receiverStartUp_transmitFrame, withAlerts_eq, risenAlerts_eq]

end Sys2Proof.Machine
end

section
/-! Reads of registers (rules R32, R35, R37 to R63, R202, R257): what each answers, and when the answer is free. -/

namespace Sys2Proof.Machine

open Sys2Proof

/-! ### Bits -/

theorem highByte_eq (w : Word16) : highByte w = (w >>> 8).setWidth 8 := rfl

theorem lowByte_eq (w : Word16) : lowByte w = w.setWidth 8 := (BitVec.setWidth_eq_extractLsb' (by decide)).symm

/-- The whole-byte mask of a register without reserved bits. -/
theorem and_ff (v : Byte) : v &&& 0xFF = v := BitVec.and_allOnes

/-- Two words share a bit where they are both 1. -/
theorem and_ne_zero_iff {w : Nat} (x y : BitVec w) :
    x &&& y ≠ 0#w ↔ ∃ k, k < w ∧ x.getLsbD k = true ∧ y.getLsbD k = true := by
  rw [ne_eq, BitVec.eq_of_getLsbD_eq_iff]
  simp

/-- A byte with bits drawn from the byte itself is that byte. -/
theorem drawBitsIn_self (m d : Byte) : drawBitsIn m d d = d := by
  rw [drawBitsIn, ← BitVec.and_or_distrib_left, BitVec.or_comm, BitVec.or_not_self]
  exact BitVec.and_allOnes

/-! ### The computed registers -/

/-- The interrupt line is the OR of the enabled request flags (rules R43, R416, R418). -/
theorem irqActive_iff (s : State) :
    irqActive s = true ↔ (∃ k, k < 7 ∧ s.comIEn.getLsbD k = true ∧ s.comIrq.getLsbD k = true) ∨
      (s.divIEn.getLsbD 4 = true ∧ s.mfinActIrq = true) ∨ (s.divIEn.getLsbD 2 = true ∧ s.crcIrq = true) := by
  have hcom : s.comIEn.extractLsb' 0 7 &&& s.comIrq ≠ 0#7 ↔
      ∃ k, k < 7 ∧ s.comIEn.getLsbD k = true ∧ s.comIrq.getLsbD k = true := by
    rw [and_ne_zero_iff]
    refine exists_congr fun k => and_congr_right fun hk => ?_
    simp [hk]
  rw [← hcom]
  simp only [irqActive, Bool.or_eq_true, Bool.and_eq_true, bne_iff_ne, or_assoc]
  rfl

/-- The enabled flags of ComIrqReg, as bits of one byte. -/
theorem comIEn_and_comIrq (e : Byte) (f : BitVec 7) :
    e &&& f.setWidth 8 ≠ 0 ↔ ∃ k, k < 7 ∧ e.getLsbD k = true ∧ f.getLsbD k = true := by
  refine (and_ne_zero_iff e (f.setWidth 8)).trans (exists_congr fun k => ?_)
  constructor
  · rintro ⟨hk, he, hf⟩
    rw [BitVec.getLsbD_setWidth, Bool.and_eq_true] at hf
    exact ⟨BitVec.lt_of_getLsbD hf.2, he, hf.2⟩
  · rintro ⟨hk, he, hf⟩
    refine ⟨by omega, he, ?_⟩
    rw [BitVec.getLsbD_setWidth, hf, decide_eq_true (by omega), Bool.and_true]

/-- Status1Reg's bits by their weights (rule R43). -/
theorem status1Byte_and (s : State) :
    status1Byte s &&& 0x7B = (if crcOk s then 0x40 else 0) ||| (if s.crcReady then 0x20 else 0) |||
      (if irqActive s then 0x10 else 0) ||| (if s.tRunning then 0x08 else 0) ||| (if hiAlert s then 0x02 else 0) |||
      (if loAlert s then 0x01 else 0) := by
  unfold status1Byte
  generalize crcOk s = c, s.crcReady = r, irqActive s = i, s.tRunning = t, hiAlert s = h, loAlert s = l
  revert c r i t h l
  decide

/-! ### What a read shows -/

/-- A read of CommandReg shows its fields, with PowerDown = 1 during a reset or a wake-up too (rules R37, R65). -/
theorem readsAs_command {s : State} (hn : s.nrst = true) :
    ReadsAs 0x01 0x3F ((if s.rcvOff then 0x20 else 0) ||| (if s.powerDown || s.pdBusy then 0x10 else 0) |||
      (match s.cmd with | .idle => 0x00 | .calcCrc => 0x03 | .transceive => 0x0C | .softReset => 0x0F)) s := by
  refine ⟨readValue s commandReg (Config.freeBits 8 s.draws), ?_, ?_⟩
  · rw [exec_rd _ hn (by decide), if_neg (by simp)]
    rfl
  · have hm : reservedBits (regAt commandReg) &&& 0x3F = 0 := by decide
    rw [readValue, drawBitsIn_and _ _ _ _ hm]
    show (0#2 ++ BitVec.ofBool s.rcvOff ++ BitVec.ofBool (s.powerDown || s.pdBusy) ++ cmdCode s.cmd) &&& 0x3F = _
    generalize s.rcvOff = r, (s.powerDown || s.pdBusy) = p, s.cmd = c
    cases r <;> cases p <;> cases c <;> rfl

section
variable {s : State} (h : BusReady s)
include h

theorem readsAs_command_settled :
    ReadsAs 0x01 0x3F ((if s.rcvOff then 0x20 else 0) ||| (if s.powerDown then 0x10 else 0) |||
      (match s.cmd with | .idle => 0x00 | .calcCrc => 0x03 | .transceive => 0x0C | .softReset => 0x0F)) s := by
  have hc := readsAs_command h.released
  rw [h.settled, Bool.or_false] at hc
  exact hc

theorem readsAs_waterLevel : ReadsAs 0x0B 0x3F (s.waterLevel.setWidth 8) s := by
  refine readsAs_of_shown h (by decide) (by decide) fun _ => ?_
  show s.waterLevel.setWidth 8 &&& 0x3F = _
  generalize s.waterLevel = l
  revert l
  decide

theorem readsAs_tPrescaler : ReadsAs 0x2B 0xFF (s.tPrescaler.setWidth 8) s :=
  readsAs_of_shown h (by decide) (by decide) fun _ =>
    (and_ff _).trans (BitVec.setWidth_eq_extractLsb' (by decide)).symm

theorem readsAs_divIrq :
    ReadsAs 0x05 0x94 ((if s.mfinActIrq then 0x10 else 0) ||| (if s.crcIrq then 0x04 else 0)) s := by
  refine readsAs_of_shown h (by decide) (by decide) fun _ => ?_
  show (0#3 ++ BitVec.ofBool s.mfinActIrq ++ 0#1 ++ BitVec.ofBool s.crcIrq ++ 0#2) &&& 0x94 = _
  cases s.mfinActIrq <;> cases s.crcIrq <;> rfl

theorem readsAs_status2 :
    ReadsAs 0x08 0xCF ((if s.tempSensClear then 0x80 else 0) ||| (if s.i2cForceHS then 0x40 else 0) |||
      (match s.modem with | .idle => 0x00 | .waitStart => 0x01 | .waitData => 0x05)) s := by
  refine readsAs_of_shown h (by decide) (by decide) fun _ => ?_
  show (BitVec.ofBool s.tempSensClear ++ BitVec.ofBool s.i2cForceHS ++ 0#3 ++ modemCode s.modem) &&& 0xCF = _
  cases s.tempSensClear <;> cases s.i2cForceHS <;> cases s.modem <;> rfl

theorem readsAs_fifoLevel (hf : s.fifo.length ≤ 64) : ReadsAs 0x0A 0xFF (BitVec.ofNat 8 s.fifo.length) s := by
  refine readsAs_of_shown h (by decide) (by decide) fun _ => (and_ff _).trans ?_
  show (BitVec.ofNat 7 s.fifo.length).setWidth 8 = _
  bv_omega

theorem readsAs_control : ReadsAs 0x0C 0xC7 (s.rxLastBits.setWidth 8) s := by
  refine readsAs_of_shown h (by decide) (by decide) fun _ => ?_
  show s.rxLastBits.setWidth 8 &&& 0xC7 = _
  generalize s.rxLastBits = l
  revert l
  decide

theorem readsAs_bitFraming :
    ReadsAs 0x0D 0xF7 ((if s.startSend then 0x80 else 0) ||| (s.rxAlign.setWidth 8 <<< 4) |||
      s.txLastBits.setWidth 8) s := by
  refine readsAs_of_shown h (by decide) (by decide) fun _ => ?_
  show (BitVec.ofBool s.startSend ++ s.rxAlign ++ 0#1 ++ s.txLastBits) &&& 0xF7 = _
  generalize s.startSend = b, s.rxAlign = a, s.txLastBits = l
  revert b a l
  decide

theorem readsAs_coll :
    ReadsAs 0x0E 0xBF ((if s.valuesAfterColl then 0x80 else 0) ||| (if s.collPosNotValid then 0x20 else 0) |||
      s.collPos.setWidth 8) s := by
  refine readsAs_of_shown h (by decide) (by decide) fun _ => ?_
  show (BitVec.ofBool s.valuesAfterColl ++ 0#1 ++ BitVec.ofBool s.collPosNotValid ++ s.collPos) &&& 0xBF = _
  generalize s.valuesAfterColl = v, s.collPosNotValid = n, s.collPos = p
  revert v n p
  decide

theorem readsAs_status1 :
    ReadsAs 0x07 0x7B ((if s.crcReady = true ∧ s.crc = 0 then 0x40 else 0) ||| (if s.crcReady then 0x20 else 0) |||
      (if (s.comIEn &&& s.comIrq.setWidth 8 ≠ 0) ∨
          (s.divIEn.getLsbD 4 = true ∧ s.mfinActIrq = true) ∨ (s.divIEn.getLsbD 2 = true ∧ s.crcIrq = true)
        then 0x10 else 0) |||
      (if s.tRunning then 0x08 else 0) ||| (if 64 - s.fifo.length ≤ s.waterLevel.toNat then 0x02 else 0) |||
      (if s.fifo.length ≤ s.waterLevel.toNat then 0x01 else 0)) s := by
  refine readsAs_of_shown h (by decide) (by decide) fun _ => ?_
  refine (status1Byte_and s).trans ?_
  simp only [comIEn_and_comIrq, ← irqActive_iff]
  simp only [crcOk, hiAlert, loAlert, Bool.and_eq_true, beq_iff_eq, decide_eq_true_eq]
  rfl

end

/-- Settles O11, register by register. -/
theorem readsOfRegisters : Obligations.ReadsOfRegisters := fun _ h =>
  ⟨readsAs_of_shown h (by decide) (by decide) fun _ => and_ff _,
    readsAs_of_shown h (by decide) (by decide) fun _ => rfl,
    readsAs_waterLevel h,
    readsAs_of_shown h (by decide) (by decide) fun _ => rfl,
    readsAs_of_shown h (by decide) (by decide) fun _ => rfl,
    readsAs_of_shown h (by decide) (by decide) fun _ => rfl,
    readsAs_of_shown h (by decide) (by decide) fun _ => and_ff _,
    readsAs_of_shown h (by decide) (by decide) fun _ => rfl,
    readsAs_of_shown h (by decide) (by decide) fun _ => and_ff _,
    readsAs_tPrescaler h,
    readsAs_of_shown h (by decide) (by decide) fun _ => and_ff _,
    readsAs_of_shown h (by decide) (by decide) fun _ => (and_ff _).trans (lowByte_eq _),
    readsAs_of_shown h (by decide) (by decide) fun _ => and_ff _,
    readsAs_command_settled h,
    readsAs_of_shown h (by decide) (by decide) fun _ => and_ff _,
    readsAs_divIrq h,
    readsAs_of_shown h (by decide) (by decide) fun _ => rfl,
    readsAs_status2 h, readsAs_fifoLevel h, readsAs_control h, readsAs_bitFraming h, readsAs_coll h, readsAs_status1 h⟩

/-! ### Free values -/

/-- The registers outside the block that can be written (rule R31). -/
def outsideAddrs : List RegAddr :=
  [0x16, 0x17, 0x18, 0x19, 0x1C, 0x1D, 0x1F, 0x24, 0x26, 0x27, 0x28, 0x29, 0x31, 0x32, 0x33, 0x34, 0x36, 0x38, 0x39,
    0x3A]

/-- The reserved addresses (rule R32). -/
def reservedAddrs : List RegAddr :=
  [0x00, 0x0F, 0x10, 0x1A, 0x1B, 0x1E, 0x20, 0x23, 0x25, 0x30, 0x3C, 0x3D, 0x3E, 0x3F]

theorem regAt_outside (a : RegAddr) : regAt a = .outside ↔ a ∈ outsideAddrs := by revert a; decide

theorem regAt_reserved (a : RegAddr) : regAt a = .reserved ↔ a ∈ reservedAddrs := by revert a; decide

theorem ne_fifoData_of_regAt {a : RegAddr} {r : Reg} (h : regAt a = r) (hr : r ≠ .fifoData) : a ≠ fifoDataReg :=
  fun ha => hr (h.symm.trans ((regAt_fifoData a).2 ha))

/-- A stored byte is read back (rule R35). -/
theorem readsAs_outside {a : RegAddr} {v : Byte} {s : State} (h : BusReady s) (ha : a ∈ outsideAddrs)
    (hv : memRead s.other a.toNat = some v) : ReadsAs a 0xFF v s := by
  have hr := (regAt_outside a).2 ha
  refine readsAs_of_shown h (ne_fifoData_of_regAt hr (by decide)) ?_ fun d => ?_
  · rw [hr]
    rfl
  · rw [hr, and_ff]
    show (memRead s.other a.toNat).getD d = v
    rw [hv, Option.getD_some]

/-- A register that shows the free byte of the read answers it. -/
theorem exec_rd_free {a : RegAddr} {s : State} (h : BusReady s) (ha : a ≠ fifoDataReg)
    (hv : ∀ d, shownByte s a d (regAt a) = d) :
    exec (.rd a) s = .next { s with busOut := Config.freeBits 8 s.draws, draws := s.draws + 1 } := by
  rw [exec_rd a h.released ha, if_neg (by simp [h.settled]), readValue, hv, drawBitsIn_self]
  rfl

theorem readsAs_crcResult {s : State} (h : BusReady s) (hd : ¬(s.cmd = .calcCrc ∧ s.crcReady = false)) :
    ReadsAs 0x21 0xFF ((s.crcResult >>> 8).setWidth 8) s ∧ ReadsAs 0x22 0xFF (s.crcResult.setWidth 8) s := by
  constructor <;> refine readsAs_of_shown h (by decide) (by decide) fun d => (and_ff _).trans ?_
  · show (if _ then d else highByte s.crcResult) = _
    rw [if_neg hd, highByte_eq]
  · show (if _ then d else lowByte s.crcResult) = _
    rw [if_neg hd, lowByte_eq]

theorem readsAs_tCounter {s : State} (h : BusReady s) (ht : s.tRunning = false) :
    ReadsAs 0x2E 0xFF ((s.tCounter >>> 8).setWidth 8) s ∧ ReadsAs 0x2F 0xFF (s.tCounter.setWidth 8) s := by
  constructor <;> refine readsAs_of_shown h (by decide) (by decide) fun d => (and_ff _).trans ?_
  · show (if s.tRunning then d else highByte s.tCounter) = _
    rw [ht, highByte_eq]
    rfl
  · show (if s.tRunning then d else lowByte s.tCounter) = _
    rw [ht, lowByte_eq]
    rfl

/-- Settles O12: the stored values, and for each kind of free value that the register shows the byte drawn. -/
theorem readsOfFreeValues : Obligations.ReadsOfFreeValues := by
  refine ⟨fun s h => readsAs_crcResult h, fun s h => readsAs_tCounter h, fun a v s h ha => readsAs_outside h ha,
    fun a s h hfree => ?_⟩
  obtain ⟨rfl | rfl, hd⟩ | ⟨rfl | rfl, ht⟩ | hr | ⟨ho, hn⟩ | rfl | rfl := hfree
  case inl.inl | inl.inr => exact exec_rd_free h (by decide) fun _ => if_pos hd
  case inr.inl.inl | inr.inl.inr => exact exec_rd_free h (by decide) fun _ => if_pos ht
  case inr.inr.inl =>
    have ha := (regAt_reserved a).2 hr
    exact exec_rd_free h (ne_fifoData_of_regAt ha (by decide)) fun _ => by rw [ha]; rfl
  case inr.inr.inr.inl =>
    have ha := (regAt_outside a).2 ho
    refine exec_rd_free h (ne_fifoData_of_regAt ha (by decide)) fun d => ?_
    rw [ha]
    show (memRead s.other a.toNat).getD d = d
    rw [hn, Option.getD_none]
  all_goals exact exec_rd_free h (by decide) fun _ => rfl

/-- Settles O13: during a reset or a wake-up only CommandReg is read. -/
theorem readsWhileBusy : Obligations.ReadsWhileBusy := by
  intro s hn hb
  refine ⟨fun a ha => congrArg Host.Outcome.next (busRead_busy _ hn hb ha),
    congrArg Host.Outcome.next (busRead_busy _ hn hb (by decide)), ?_⟩
  have hc := readsAs_command hn
  rw [hb, Bool.or_true] at hc
  exact hc

/-- Settles O22: the pin answers the interrupt line. -/
theorem irqPinAnswersTheEnabledFlags : Obligations.IrqPinAnswersTheEnabledFlags := by
  refine fun s hn => ⟨irqActive s, ?_, rfl, irqActive_iff s⟩
  show Host.Outcome.next (pollPin s) = _
  rw [pollPin, if_neg (by simp [hn])]

end Sys2Proof.Machine
end

section
/-! Bus writes: what the write of a plain register stores (rules R35, R47, R54, R210, R312), which writes change nothing
(rules R32, R201), and which accesses are refused (rules R32, R68, R200, R201, R209). -/

namespace Sys2Proof.Machine

open Sys2Proof

/-! ### Bits -/

/-- A write stores the bits that are not reserved. -/
theorem storeBits_stored (r old v k : Byte) (h : r &&& k = 0) : storeBits (~~~r) old v &&& k = v &&& k := by
  have he : storeBits (~~~r) old v = drawBitsIn r old v := by
    rw [storeBits, drawBitsIn, BitVec.not_not, BitVec.or_comm]
  rw [he, drawBitsIn_and r old v k h]

/-- A word whose high part is replaced: the low part is what a mask of its bits keeps. -/
theorem append_low_eq {n m : Nat} (h : BitVec n) (x k : BitVec (n + m))
    (hk : ∀ i, i < n + m → k.getLsbD i = decide (i < m)) :
    h ++ x.extractLsb' 0 m = (x &&& k) ||| (h.setWidth (n + m) <<< m) := by
  refine BitVec.eq_of_getLsbD_eq fun i hi => ?_
  rw [BitVec.getLsbD_append, BitVec.getLsbD_or, BitVec.getLsbD_and, hk i hi, BitVec.getLsbD_shiftLeft]
  by_cases hlow : i < m
  · simp [hlow]
  · have hrest : i - m < n + m := by omega
    simp [hlow, hi, hrest]

/-- A word whose low part is replaced: the high part is what a mask of its bits keeps. -/
theorem append_high_eq {n m : Nat} (l : BitVec m) (x k : BitVec (n + m))
    (hk : ∀ i, i < n + m → k.getLsbD i = decide (m ≤ i)) :
    x.extractLsb' m n ++ l = (x &&& k) ||| l.setWidth (n + m) := by
  refine BitVec.eq_of_getLsbD_eq fun i hi => ?_
  rw [BitVec.getLsbD_append, BitVec.getLsbD_or, BitVec.getLsbD_and, hk i hi, BitVec.getLsbD_setWidth]
  by_cases hlow : i < m
  · have hnot : ¬m ≤ i := by omega
    simp [hlow, hi, hnot]
  · have hin : i - m < n := by omega
    have hle : m ≤ i := by omega
    simp [hlow, hi, hin, hle]

theorem prescaler_hi_stored (v : Byte) (p : BitVec 12) :
    v.extractLsb' 0 4 ++ p.extractLsb' 0 8 = (p &&& (0x0FF : BitVec 12)) ||| ((v &&& 0x0F).setWidth 12 <<< 8) := by
  have hv : (v.extractLsb' 0 4).setWidth 12 = (v &&& 0x0F).setWidth 12 := by
    revert v
    decide
  rw [← hv]
  exact append_low_eq (n := 4) (m := 8) (v.extractLsb' 0 4) p 0x0FF (by decide)

theorem prescaler_lo_stored (v : Byte) (p : BitVec 12) :
    p.extractLsb' 8 4 ++ v = (p &&& 0xF00) ||| v.setWidth 12 :=
  append_high_eq (n := 4) v p 0xF00 (by decide)

theorem reload_hi_stored (v : Byte) (w : Word16) :
    v ++ lowByte w = (w &&& (0x00FF : Word16)) ||| (v.setWidth 16 <<< 8) :=
  append_low_eq (n := 8) (m := 8) v w 0x00FF (by decide)

theorem reload_lo_stored (v : Byte) (w : Word16) : highByte w ++ v = (w &&& 0xFF00) ||| v.setWidth 16 :=
  append_high_eq (n := 8) v w 0xFF00 (by decide)

/-! ### Writes that store -/

theorem exec_wr (a : RegAddr) (v : Byte) {s : State} (h : BusReady s) :
    exec (.wr a v) s = .next (registerWrite a v s) :=
  congrArg Host.Outcome.next (busWrite_ready _ h)

/-- A write whose effect is known. -/
theorem exec_wr_eq {a : RegAddr} {v : Byte} {s t : State} (h : BusReady s) (he : registerWrite a v s = t) :
    exec (.wr a v) s = .next t :=
  he ▸ exec_wr a v h

/-- Settles O14, register by register. -/
theorem writesOfPlainRegisters : Obligations.WritesOfPlainRegisters := fun v s h =>
  ⟨⟨_, exec_wr_eq h rfl, storeBits_stored _ s.mode v _ (by decide)⟩,
    ⟨_, exec_wr_eq h rfl, storeBits_stored _ s.txMode v _ (by decide)⟩,
    ⟨_, exec_wr_eq h rfl, storeBits_stored _ s.rxMode v _ (by decide)⟩,
    ⟨_, exec_wr_eq h rfl, storeBits_stored _ s.divIEn v _ (by decide)⟩,
    exec_wr_eq h rfl,
    exec_wr_eq h rfl,
    exec_wr_eq h rfl,
    exec_wr_eq h rfl,
    prescaler_hi_stored v s.tPrescaler ▸ exec_wr_eq h rfl,
    prescaler_lo_stored v s.tPrescaler ▸ exec_wr_eq h rfl,
    reload_hi_stored v s.tReload ▸ exec_wr_eq h rfl,
    reload_lo_stored v s.tReload ▸ exec_wr_eq h rfl⟩

/-- A write of TxControlReg, by whether both antenna drivers are on after it (rules R54, R312). -/
theorem txControlWrite_eq (v : Byte) (s : State) :
    txControlWrite v s = { s with
      txControl := v, pendingResp := if v &&& 0x03 = 0x03 then s.pendingResp else none } := by
  unfold txControlWrite
  dsimp only
  rw [antennaOn_eq]
  simp only [decide_eq_true_eq]

theorem waterLevelWrite_eq (v : Byte) (s : State) :
    registerWrite 0x0B v s = { s with
      waterLevel := v.extractLsb' 0 6, comIrq := s.comIrq ||| alertRise s s.fifo (v.extractLsb' 0 6) } := by
  show withAlerts s { s with waterLevel := v.extractLsb' 0 6 } = _
  rw [withAlerts_eq, risenAlerts_eq]

/-- Settles O15. -/
theorem writesOfTxControlAndWaterLevelActAtOnce : Obligations.WritesOfTxControlAndWaterLevelActAtOnce := by
  refine fun v s h => ⟨fun on => exec_wr_eq h ?_, fun off => exec_wr_eq h ?_, exec_wr_eq h (waterLevelWrite_eq v s)⟩
  · exact (txControlWrite_eq v s).trans (by rw [if_pos on])
  · exact (txControlWrite_eq v s).trans (by rw [if_neg off])

theorem registerWrite_outside {a : RegAddr} (v : Byte) (s : State) (ha : a ∈ outsideAddrs) :
    registerWrite a v s = { s with other := memWrite s.other a.toNat v } := by
  unfold registerWrite
  rw [(regAt_outside a).2 ha]

/-- Settles O16, from the laws of the stored bytes. -/
theorem registersOutsideTheBlockHoldTheirByte : Obligations.RegistersOutsideTheBlockHoldTheirByte := by
  refine fun a v s h ha hwf => ⟨{ s with other := memWrite s.other a.toNat v },
    exec_wr_eq h (registerWrite_outside v s ha), rfl, memWrite_wf _ _ _ hwf, ?_, ?_⟩
  · exact readsAs_outside ⟨h.released, h.settled⟩ ha (memRead_memWrite_same _ _ _)
  · exact fun n hn => memRead_memWrite_other _ _ hn

/-! ### Writes that change nothing (rules R32, R34, R201) -/

/-- The kinds of register that ignore every write. -/
def Reg.ignoresWrites (r : Reg) : Bool :=
  r ∈ [.error, .status1, .crcResultH, .crcResultL, .tCounterH, .tCounterL, .version, .outsideReadOnly, .reserved]

theorem registerWrite_ignored {a : RegAddr} (v : Byte) (s : State) (h : (regAt a).ignoresWrites = true) :
    registerWrite a v s = s := by
  unfold registerWrite
  cases hr : regAt a with
  | error | status1 | crcResultH | crcResultL | tCounterH | tCounterL | version | outsideReadOnly | reserved => rfl
  | _ => exact absurd (hr ▸ h) (by decide)

theorem readOnly_ignoresWrites {a : RegAddr} (h : a ∈ [0x06, 0x07, 0x21, 0x22, 0x2E, 0x2F, 0x35, 0x37, 0x3B]) :
    (regAt a).ignoresWrites = true := by
  revert a
  decide

theorem reserved_ignoresWrites {a : RegAddr} (h : a ∈ reservedAddrs) : (regAt a).ignoresWrites = true := by
  rw [(regAt_reserved a).2 h]
  rfl

/-- Settles O17: read-only and reserved addresses, and the two strobe registers without a strobe bit. -/
theorem writesThatChangeNothing : Obligations.WritesThatChangeNothing := by
  intro a v s h hq
  refine exec_wr_eq h ?_
  obtain hr | hr | ⟨rfl, h7⟩ | ⟨rfl, h7, h6⟩ := hq
  · exact registerWrite_ignored v s (readOnly_ignoresWrites hr)
  · exact registerWrite_ignored v s (reserved_ignoresWrites hr)
  · show (if v.getLsbD 7 then hostFlush s else s) = s
    rw [h7]
    rfl
  · show (if v.getLsbD 7 then timerStop s else if v.getLsbD 6 then timerStart s else s) = s
    rw [h7, h6]
    rfl

/-! ### Refused accesses -/

theorem busBadAddr_held {s : State} (hn : s.nrst = false) : busBadAddr s = refuse .busAccessInHardPowerDown s :=
  if_pos hn

theorem busBadAddr_released {s : State} (hn : s.nrst = true) : busBadAddr s = refuse .addressOutOfRange s :=
  if_neg (by simp [hn])

theorem pollPin_held {s : State} (hn : s.nrst = false) : pollPin s = refuse .busAccessInHardPowerDown s := if_pos hn

/-- Settles O19, by the guard of each operation. -/
theorem hardPowerDownRefusesEveryAccess : Obligations.HardPowerDownRefusesEveryAccess := by
  intro i s hn ha hr
  cases i with
  | assertReset => exact absurd rfl ha
  | releaseReset => exact absurd rfl hr
  | rd | fifoPop => exact congrArg Host.Outcome.next (busRead_held _ _ hn)
  | badAddr | badAddr6 => exact congrArg Host.Outcome.next (busBadAddr_held hn)
  | irqPin => exact congrArg Host.Outcome.next (pollPin_held hn)
  | wr | idle | mem | genRandId | calcCrc | transmit | reserved5 | reserved6 | noCmdChange | receive | reserved9
  | reservedA | reservedB | transceive | reservedD | mfAuthent | softReset | powerDown | irqSet | irqClear | divIrqSet
  | divIrqClear | fifoPush | flushBuffer | tStopNow | tStartNow | startSend =>
    exact congrArg Host.Outcome.next (busWrite_held _ hn)

/-- Settles O20. -/
theorem addressesOutOfRangeAreRefused : Obligations.AddressesOutOfRangeAreRefused := fun _ _ _ _ _ hn =>
  ⟨congrArg Host.Outcome.next (busBadAddr_released hn), congrArg Host.Outcome.next (busBadAddr_released hn)⟩

end Sys2Proof.Machine
end

section
/-! The reset state, the reset pin, and the completion of a reset or wake-up (rules R31, R73, R74, R225, R228, R500,
R501, R503). -/

namespace Sys2Proof.Machine

open Sys2Proof

/-- Settles O7: each field by its value, and the interrupt line by the flags that are enabled, none. -/
theorem resetState : Obligations.ResetState := by
  and_intros <;> rfl

/-- Settles O8. -/
theorem invariantHoldsAtReset : Obligations.InvariantHoldsAtReset := chipInv_reset

/-! ### When a step is enabled -/

/-- Every step needs a chip that is in neither power-down (rule R404). -/
theorem engineAwake_of_enabled {e : EngineStep} {s : State} (h : engineEnabled e s = true) : engineAwake s = true := by
  cases e <;> simp only [engineEnabled, engineRuns, Bool.and_eq_true] at h <;> simp only [h]

theorem engineStep_of_held (e : EngineStep) {s : State} (hn : s.nrst = false) : engineStep e s = s := by
  refine engineStep_of_disabled (Bool.eq_false_iff.2 fun he => ?_)
  have ha := engineAwake_of_enabled he
  rw [engineAwake, hn, Bool.false_and] at ha
  exact Bool.noConfusion ha

theorem engineEnabled_resetDone (s : State) :
    engineEnabled .resetDone s = true ↔
      s.nrst = true ∧ s.powerDown = false ∧ s.cmd = .softReset ∧ s.pdBusy = true := by
  simp only [engineEnabled, engineAwake, Bool.and_eq_true, Bool.not_eq_true', beq_iff_eq, and_assoc]

theorem engineEnabled_wakeDone (s : State) :
    engineEnabled .wakeDone s = true ↔
      s.nrst = true ∧ s.powerDown = false ∧ s.pdBusy = true ∧ s.cmd ≠ .softReset := by
  simp only [engineEnabled, engineAwake, Bool.and_eq_true, Bool.not_eq_true', bne_iff_ne, and_assoc]

/-! ### The statements about resets -/

/-- Settles O50: with the reset input asserted the field is off and no step is enabled. -/
theorem assertResetEntersHardPowerDown : Obligations.AssertResetEntersHardPowerDown := fun s =>
  ⟨assertResetPin s, rfl, rfl, Bool.and_false _, fun e => engineStep_of_held e rfl⟩

theorem releaseResetPin_of_released {s : State} (hn : s.nrst = true) : releaseResetPin s = s := if_pos hn

theorem releaseResetPin_of_held {s : State} (hn : s.nrst = false) :
    releaseResetPin s = logEvent (.reset .hard) { chipReset s with nrst := true, pdBusy := true } :=
  if_neg (by simp [hn])

/-- Settles O51, by the level of the pin. -/
theorem releaseResetIsAHardReset : Obligations.ReleaseResetIsAHardReset :=
  ⟨fun _ hn => congrArg Host.Outcome.next (releaseResetPin_of_released hn),
    fun _ hn => ⟨_, _, _, congrArg Host.Outcome.next (releaseResetPin_of_held hn)⟩⟩

/-- Settles O52: the effect of each step where it is enabled, and nothing elsewhere. -/
theorem resetAndWakeUpComplete : Obligations.ResetAndWakeUpComplete := by
  refine ⟨fun s hn hp hc hb => ?reset, fun s h => ?noReset, fun s hn hp hb hc => ?wake, fun s h => ?noWake⟩
  case reset =>
    refine ⟨Config.freeBits 5 s.draws, Config.freeBits 16 (s.draws + 1), s.draws + 2, ?_⟩
    rw [engineStep_of_enabled ((engineEnabled_resetDone s).2 ⟨hn, hp, hc, hb⟩)]
    simp only [engineEffect, resetDoneEffect, logEvent, raiseCom, chipReset, hn]
    rfl
  case noReset =>
    refine engineStep_of_disabled (Bool.eq_false_iff.2 fun he => ?_)
    obtain ⟨hn, _, hc, hb⟩ := (engineEnabled_resetDone s).1 he
    simp [hn, hc, hb] at h
  case wake => exact engineStep_of_enabled ((engineEnabled_wakeDone s).2 ⟨hn, hp, hb, hc⟩)
  case noWake =>
    refine engineStep_of_disabled (Bool.eq_false_iff.2 fun he => ?_)
    obtain ⟨hn, _, hb, hc⟩ := (engineEnabled_wakeDone s).1 he
    simp [hn, hc, hb] at h

end Sys2Proof.Machine
end

section
/-! Reads without side effect (rules R107, R200, R414): every register but FIFODataReg only answers, and FIFODataReg's
read is the pop. -/

namespace Sys2Proof.Machine

open Sys2Proof

/-- The effect of a read of FIFODataReg is HOST's pop (rule R207). -/
theorem registerRead_fifoData : registerRead fifoDataReg = hostPop := funext fun _ => if_pos rfl

/-- Settles O10. -/
theorem readsHaveNoSideEffect : Obligations.ReadsHaveNoSideEffect := by
  refine ⟨fun a s hn ha => ⟨_, exec_rd a hn ha⟩, fun s => ?_⟩
  show Host.Outcome.next (busRead fifoDataReg (registerRead fifoDataReg) s) = .next (busRead fifoDataReg hostPop s)
  rw [registerRead_fifoData]

end Sys2Proof.Machine
end

section
/-! The received bits (rules R25, R102, R304, R314, R315 (c)): which bit of which stored byte a received symbol gives. -/

namespace Sys2Proof.Machine

open Sys2Proof

/-- A grid position at or after `off` holds the bit that many places on. -/
theorem grid_getElem? (free : Nat → Bool) (off : Nat) {bits : List Bool} {k : Nat} (hk : k < bits.length) :
    (grid free off bits)[off + k]? = bits[k]? := by
  unfold grid
  rw [List.getElem?_append_left (by simpa using hk), List.getElem?_append_right (by simp)]
  simp

/-- Bit `k` of a packed string stands at bit `(off + k) % 8` of byte `(off + k) / 8` (rule R25). -/
theorem pack_getElem? (free : Nat → Bool) (off : Nat) {bits : List Bool} {k : Nat} {v : Bool}
    (h : bits[k]? = some v) :
    ∃ b : Byte, (pack free off bits)[(off + k) / 8]? = some b ∧ b.getLsbD ((off + k) % 8) = v := by
  obtain ⟨hk, _⟩ := List.getElem?_eq_some_iff.1 h
  have hbyte : (off + k) / 8 < (off + bits.length + 7) / 8 := by omega
  have hbit : (off + k) % 8 < 8 := Nat.mod_lt _ (by decide)
  refine ⟨_, bytesOfBits_getElem? _ _ _ hbyte, ?_⟩
  rw [byteOfBits_getLsbD _ _ hbit, List.getD_eq_getElem?_getD, List.getElem?_take_of_lt hbit, List.getElem?_drop,
    Nat.div_add_mod, grid_getElem? free off hk, h, Option.getD_some]

/-- The bit a received symbol gives, at its place in the stored bytes (rule R314). -/
theorem receivedBytes_getElem? (s : State) (r : Reply) {k : Nat} {y : Sys2Proof.Sym} (h : r.syms[k]? = some y) :
    ∃ b : Byte, (receivedBytes s r)[(s.rxAlign.toNat + k) / 8]? = some b ∧
      b.getLsbD ((s.rxAlign.toNat + k) % 8) =
        if .x ∈ r.syms.take (k + 1) ∧ s.valuesAfterColl = false then false
        else symBit y (freeBitAt s (s.rxAlign.toNat + k)) := by
  obtain ⟨b, hb, hbit⟩ := pack_getElem? (freeBitAt s) s.rxAlign.toNat
    (receivedBits_getElem? s.valuesAfterColl (freeBitAt s) s.rxAlign.toNat false r.syms k y h)
  refine ⟨b, hb, hbit.trans ?_⟩
  simp only [Bool.false_or, Bool.and_eq_true, List.contains_iff_mem, Bool.not_eq_true']

/-- A symbol that is not collided gives its own bit. -/
theorem symBit_of_ne_x {y : Sys2Proof.Sym} (f : Bool) (h : y ≠ .x) : symBit y f = (y == .one) := by
  cases y with
  | zero | one => rfl
  | x => exact absurd rfl h

/-- Settles O48: the bit at each place, with the collisions before it lost or kept. -/
theorem receivedBitsStandInOrder : Obligations.ReceivedBitsStandInOrder := by
  refine fun s r => ⟨receivedBytes_length s r, fun k y h => ?_⟩
  obtain ⟨b, hb, hbit⟩ := receivedBytes_getElem? s r h
  refine ⟨b, hb, fun hlost hx => ?lost, fun hkept hy => ?kept⟩
  case lost => rw [hbit, if_pos ⟨hx, hlost⟩]
  case kept =>
    have hnot : ¬(.x ∈ r.syms.take (k + 1) ∧ s.valuesAfterColl = false) := fun ⟨hx, hv⟩ =>
      hkept.elim (fun ht => Bool.noConfusion (ht.symm.trans hv)) fun hn => hn hx
    rw [hbit, if_neg hnot, symBit_of_ne_x _ hy]

end Sys2Proof.Machine
end

section
/-! The CRC result (rules R109, R256, R258): only CRC_DONE and the resets change it, and a stop keeps the ready mark. -/

namespace Sys2Proof.Machine

open Sys2Proof

/-- The fields that no bus write changes (rules R109, R201, R210): the result of the last reception and of the last CRC,
the reset input, and what is not the chip's. -/
theorem registerWrite_frame (a : RegAddr) (v : Byte) (s : State) :
    registerWrite a v s = { registerWrite a v s with
      rxLastBits := s.rxLastBits, collPosNotValid := s.collPosNotValid, collPos := s.collPos
      crcResult := s.crcResult, nrst := s.nrst, busOut := s.busOut, pinOut := s.pinOut, hostOps := s.hostOps
      sched := s.sched, field := s.field, cancels := s.cancels, allowOverheat := s.allowOverheat } := by
  unfold registerWrite
  cases regAt a with
  | command =>
    dsimp only
    rw [commandWrite_frame]
  | fifoData =>
    dsimp only
    rw [hostPush_frame]
  | fifoLevel =>
    dsimp only
    split <;> rfl
  | control =>
    dsimp only
    rw [controlWrite_frame]
  | bitFraming =>
    dsimp only
    rw [bitFramingWrite_frame]
  | comIEn | divIEn | comIrq | divIrq | status2 | waterLevel | coll | mode | txMode | rxMode | txControl | txASK | tMode
  | tPrescaler | tReloadH | tReloadL | outside | error | status1 | crcResultH | crcResultL | tCounterH | tCounterL
  | version | outsideReadOnly | reserved => rfl

theorem QuietEffect.crcResult_eq {s t : State} (q : QuietEffect s t) : t.crcResult = s.crcResult := by
  cases q with
  | popped => rw [hostPop_frame]
  | ignored | refused | answered | pinPolled => rfl

theorem exec_crcResult {i : Instr} {s t : State} (h : exec i s = .next t) (hr : i ≠ .releaseReset) :
    t.crcResult = s.crcResult := by
  cases exec_rowEffect h with
  | wrote a v => rw [registerWrite_frame]
  | resetAsserted => rfl
  | resetReleased row => exact absurd row hr
  | quiet q => exact q.crcResult_eq

theorem engineEffect_crcResult {e : EngineStep} (s : State) (hd : e ≠ .crcDone) (hr : e ≠ .resetDone) :
    (engineEffect e s).crcResult = s.crcResult := by
  cases e with
  | crcByte => rw [engineEffect, crcByteEffect_frame]
  | tx => rw [engineEffect, txEffect_frame]
  | rx => rw [engineEffect, rxEffect_frame]
  | timerExpire => rw [engineEffect, timerExpireEffect_frame]
  | crcDone => exact absurd rfl hd
  | resetDone => exact absurd rfl hr
  | overheat | wakeDone => rfl

theorem engineStep_crcResult {e : EngineStep} (s : State) (hd : e ≠ .crcDone) (hr : e ≠ .resetDone) :
    (engineStep e s).crcResult = s.crcResult := by
  obtain ⟨_, he⟩ | ⟨_, he⟩ := engineStep_cases e s <;> rw [he]
  exact engineEffect_crcResult s hd hr

/-- CRC_DONE is a step of CalcCRC alone (rule R256). -/
theorem engineStep_crcDone_of_ne {s : State} (hc : s.cmd ≠ .calcCrc) : engineStep .crcDone s = s :=
  engineStep_of_disabled (by simp [engineEnabled, hc])

/-- IDLE on a chip that is on: the stop of the active command (rule R222). -/
theorem exec_idle (r : Bool) {s : State} (h : CommandReady s) :
    exec (.idle r) s = .next (clearErrAtStart (stopCommand (setRcvOff r s))) := by
  show Host.Outcome.next (busWrite (commandWrite r false 0x0) s) = _
  rw [busWrite_ready _ h.toBusReady, commandWrite_awake r _ h.awake]
  rfl

/-- Settles O42: by the effect of the operation's row, by the step that is taken, and by the stop. -/
theorem crcResultIsStable : Obligations.CrcResultIsStable := by
  refine ⟨fun _ _ _ => exec_crcResult, fun _ s => engineStep_crcResult s, fun s hc e hr => ?other,
    fun r s t hs h => ?stop⟩
  case other =>
    by_cases hd : e = .crcDone
    · rw [hd, engineStep_crcDone_of_ne hc]
    · exact engineStep_crcResult s hd hr
  case stop =>
    cases (exec_idle r hs).symm.trans h
    rfl

end Sys2Proof.Machine
end

section
/-! The running timer under fairness (rules R104, R426, R427, R430): while HOST issues nothing and no reception stops
it, the timer of a chip that is on stays enabled to expire, so a fair run expires it. -/

namespace Sys2Proof.Machine

open Sys2Proof

/-! ### What keeps the timer running -/

theorem timerStart_running {s : State} (h : s.tRunning = true) : (timerStart s).tRunning = true := by
  unfold timerStart
  split
  · exact h
  · rfl

theorem awaitReply_running {s : State} (h : s.tRunning = true) : (awaitReply s).tRunning = true := by
  have hm : (fieldMoved s).tRunning = true := by
    rw [fieldMoved_frame]
    exact h
  unfold awaitReply
  dsimp only
  split
  · exact timerStart_running hm
  · exact hm

/-- A transmission restarts the timer or leaves it alone (rule R426). -/
theorem txEffect_running {s : State} (h : s.tRunning = true) : (txEffect s).tRunning = true := by
  unfold txEffect
  split
  · exact h
  · split
    · exact h
    · exact awaitReply_running (s := receiverStartUp (transmitFrame s)) h

theorem rxEffect_hist {s : State} {r : Reply} (h : s.pendingResp = some r) :
    (rxEffect s).hist = s.hist ++ [.rx r] := by
  simp only [rxEffect, h, withAlerts_eq, raiseCom_hist]
  rw [logEvent_hist, stopTimerOnReply_frame, flagReply_frame, storeReply_frame]

/-- A reply that ENGINE may receive is pending (rule R314). -/
theorem pendingResp_of_rx_enabled {s : State} (h : engineEnabled .rx s = true) : ∃ r, s.pendingResp = some r := by
  simp only [engineEnabled, Bool.and_eq_true] at h
  exact Option.isSome_iff_exists.1 h.1.2

/-! ### The state in which the timer may expire -/

/-- The timer of a chip that is on runs, and HOST has nothing left to issue. -/
structure TimerWaits (s : State) : Prop where
  ready : EngineReady s
  running : s.tRunning = true
  hostDone : s.hostOps = []

/-- The timer has expired on the way from `s` to `t`, or a reception has stopped it. -/
def TimerEnded (s t : State) : Prop :=
  (t.hist = s.hist ++ [.timerExpire] ∧ t.comIrq.getLsbD 0 = true) ∨
    ∃ r : Reply, t.hist = s.hist ++ [.rx r] ∧ t.tRunning = false

theorem TimerWaits.enabled {s : State} (h : TimerWaits s) : engineEnabled .timerExpire s = true := by
  simp only [engineEnabled, (engineRuns_iff s).2 h.ready, h.running, Bool.and_self]

/-- The timer waits on where it runs on, the chip stays on and HOST stays done. -/
theorem TimerWaits.running_on {s t : State} (h : TimerWaits s)
    (hc : (t.nrst, t.pdBusy, t.powerDown, t.hostOps) = (s.nrst, s.pdBusy, s.powerDown, s.hostOps))
    (ht : t.tRunning = true) : TimerWaits t := by
  simp only [Prod.mk.injEq] at hc
  obtain ⟨hn, hb, hp, ho⟩ := hc
  exact ⟨⟨hn.trans h.ready.released, hb.trans h.ready.settled, hp.trans h.ready.awake⟩, ht, ho.trans h.hostDone⟩

theorem timerWaits_takeMove {s : State} (h : TimerWaits s) : TimerWaits (takeMove s).2 := by
  rw [takeMove_frame]
  exact h.running_on rfl h.running

theorem timerEnded_timerExpireEffect (s : State) : TimerEnded s (timerExpireEffect s) := by
  rw [timerExpireEffect_frame]
  exact .inl ⟨rfl, by simp [timerIRq]⟩

/-- A reception stops the timer, or the timer runs on. -/
theorem timerEnded_or_waits_rxEffect {s : State} (h : TimerWaits s) {r : Reply} (hr : s.pendingResp = some r) :
    TimerEnded s (rxEffect s) ∨ TimerWaits (rxEffect s) := by
  cases ht : (rxEffect s).tRunning with
  | false => exact .inl (.inr ⟨r, rxEffect_hist hr, ht⟩)
  | true => exact .inr (h.running_on (by rw [rxEffect_frame]) ht)

theorem timerWaits_txEffect {s : State} (h : TimerWaits s) : TimerWaits (txEffect s) :=
  h.running_on (by rw [txEffect_frame]) (txEffect_running h.running)

/-- Every step that is taken ends the timer's run or lets it go on. -/
theorem timerEnded_or_waits_engineEffect {s : State} (h : TimerWaits s) {e : EngineStep}
    (he : engineEnabled e s = true) : TimerEnded s (engineEffect e s) ∨ TimerWaits (engineEffect e s) := by
  cases e with
  | timerExpire => exact .inl (timerEnded_timerExpireEffect s)
  | rx =>
    obtain ⟨r, hr⟩ := pendingResp_of_rx_enabled he
    exact timerEnded_or_waits_rxEffect h hr
  | tx => exact .inr (timerWaits_txEffect h)
  | crcByte =>
    rw [engineEffect, crcByteEffect_frame]
    exact .inr (h.running_on rfl h.running)
  | crcDone | overheat => exact .inr (h.running_on rfl h.running)
  | resetDone =>
    obtain ⟨_, _, _, busy⟩ := (engineEnabled_resetDone s).1 he
    exact absurd (h.ready.settled.symm.trans busy) Bool.false_ne_true
  | wakeDone =>
    obtain ⟨_, _, busy, _⟩ := (engineEnabled_wakeDone s).1 he
    exact absurd (h.ready.settled.symm.trans busy) Bool.false_ne_true

theorem timerEnded_or_waits_engineStep {s : State} (h : TimerWaits s) (e : EngineStep) :
    TimerEnded s (engineStep e s) ∨ TimerWaits (engineStep e s) := by
  obtain ⟨he, hs⟩ | ⟨_, hs⟩ := engineStep_cases e s <;> rw [hs]
  · exact timerEnded_or_waits_engineEffect h he
  · exact .inr h

theorem TimerEnded.of_takeMove {s t : State} (h : TimerEnded (takeMove s).2 t) : TimerEnded s t := by
  rw [takeMove_frame] at h
  exact h

/-- A step of the machine ends the timer's run or lets it go on: HOST has nothing to issue, and ENGINE's steps do. -/
theorem timerEnded_or_waits_step {s t : State} (h : TimerWaits s) (hs : step s = .next t) :
    TimerEnded s t ∨ TimerWaits t := by
  have h₁ := timerWaits_takeMove h
  obtain ⟨_, ⟨e, _, rfl⟩ | ⟨_, hm⟩⟩ := step_cases hs
  · exact (timerEnded_or_waits_engineStep h₁ e).imp_left TimerEnded.of_takeMove
  · cases (hostMove_of_done h₁.hostDone).symm.trans hm
    exact .inr h₁

/-- The step TIMER_EXPIRE ends it. -/
theorem timerEnded_of_step_timerExpire {s t : State} (h : TimerWaits s) (hs : step s = .next t)
    (hm : nextMove s = .engine .timerExpire) : TimerEnded s t := by
  obtain ⟨hr, _⟩ := step_cases hs
  have h₁ := timerWaits_takeMove h
  cases (step_of_engine hr hm).symm.trans hs
  rw [engineStep_of_enabled h₁.enabled]
  exact (timerEnded_timerExpireEffect _).of_takeMove

/-! ### The run -/

/-- Until the timer's run ends, it goes on in every state of the run. -/
theorem timerWaits_of_not_ended {σ : Nat → State} {n : Nat} (h : TimerWaits (σ n))
    (hstep : ∀ m, n ≤ m → step (σ m) = .next (σ (m + 1)))
    (hnot : ∀ m, n ≤ m → TimerWaits (σ m) → ¬TimerEnded (σ m) (σ (m + 1))) (m : Nat) (hm : n ≤ m) :
    TimerWaits (σ m) := by
  induction hm with
  | refl => exact h
  | step hm ih => exact (timerEnded_or_waits_step ih (hstep _ hm)).resolve_left (hnot _ hm ih)

/-- Settles O30: a timer that neither expires nor is stopped stays enabled to expire, and a fair run takes that step. -/
theorem weaklyFairRunsExpireTheTimer : Obligations.WeaklyFairRunsExpireTheTimer := by
  intro load σ n hrun hfair hready hrunning hdone hload
  have hstep : ∀ m, n ≤ m → step (σ m) = .next (σ (m + 1)) := fun m hm => by
    have hs := hrun m
    rwa [hload m hm, loadOps_nil] at hs
  suffices ∃ m, n ≤ m ∧ TimerWaits (σ m) ∧ TimerEnded (σ m) (σ (m + 1)) by
    obtain ⟨m, hm, hw, he⟩ := this
    exact ⟨m, hm, hw.running, he⟩
  refine Classical.byContradiction fun hnone => ?_
  have hwaits : ∀ m, n ≤ m → TimerWaits (σ m) :=
    timerWaits_of_not_ended ⟨hready, hrunning, hdone⟩ hstep fun m hm hw he => hnone ⟨m, hm, hw, he⟩
  obtain ⟨m, hm, hnext⟩ := hfair n fun m hm => (hwaits m hm).enabled
  exact hnone ⟨m, hm, hwaits m hm, timerEnded_of_step_timerExpire (hwaits m hm) (hstep m hm) hnext⟩

end Sys2Proof.Machine
end

section
/-! Decoding and encoding (rules R141, R144 to R148, R157, R158): the fields of a word and of its bytes come back, so an
encoded operation decodes to itself. -/

namespace Sys2Proof

/-! ### The fields of a BUS word -/

theorem busWord_kind (k : Bool) (a d : Byte) : (busWord k a d).getLsbD 16 = k := by
  rw [busWord, BitVec.getLsbD_append, BitVec.getLsbD_append]
  simp

theorem busWord_addr (k : Bool) (a d : Byte) : (busWord k a d).extractLsb' 8 8 = a := by
  rw [busWord, BitVec.extractLsb'_append_eq_of_le (Nat.le_refl 8)]
  exact BitVec.extractLsb'_append_eq_right

theorem busWord_data (k : Bool) (a d : Byte) : (busWord k a d).extractLsb' 0 8 = d :=
  BitVec.extractLsb'_append_eq_right

theorem decode_busWord (k : Bool) (a d : Byte) : decode (.bus (busWord k a d)) = .ok (decodeBus k a d) := by
  rw [decode, busWord_kind, busWord_addr, busWord_data]

/-! ### The carriers (rules R141, R158) -/

theorem carrier_addr (a : RegAddr) : (carrier a).extractLsb' 0 6 = a := by revert a; decide

theorem decodeBus_carrier (k : Bool) (a : RegAddr) (d : Byte) :
    decodeBus k (carrier a) d = if k then decodeWrite a d else decodeRead a := by
  have h7 : (carrier a).getLsbD 7 = false := by revert a; decide
  have h6 : (carrier a).getLsbD 6 = false := by revert a; decide
  rw [decodeBus, h7, h6, carrier_addr]
  rfl

theorem decodeBus_badAddr (k : Bool) (a : BitVec 7) (d : Byte) : decodeBus k (topByte true a) d = .badAddr k a d := by
  rw [decodeBus, Machine.topByte_top, Machine.topByte_low]
  rfl

theorem decodeBus_badAddr6 (k : Bool) (a : BitVec 6) (d : Byte) : decodeBus k (1#2 ++ a) d = .badAddr6 k a d := by
  have h7 : (1#2 ++ a).getLsbD 7 = false := by revert a; decide
  have h6 : (1#2 ++ a).getLsbD 6 = true := by revert a; decide
  have ha : (1#2 ++ a).extractLsb' 0 6 = a := by revert a; decide
  rw [decodeBus, h7, h6, ha]
  rfl

theorem decode_write (a : RegAddr) (d : Byte) : decode (.bus (busWord true (carrier a) d)) = .ok (decodeWrite a d) := by
  rw [decode_busWord, decodeBus_carrier]
  rfl

theorem decode_read (a : RegAddr) (d : Byte) : decode (.bus (busWord false (carrier a) d)) = .ok (decodeRead a) := by
  rw [decode_busWord, decodeBus_carrier]
  rfl

/-! ### The rows of a transaction -/

/-- The transactions that a row of their own takes are the conditions of the decoder (rule R152). -/
theorem plainWrite_iff (a : RegAddr) (d : Byte) :
    plainWrite a d = true ↔ (a ≠ 0x01 ∧ a ≠ 0x04 ∧ a ≠ 0x05 ∧ a ≠ 0x09) ∧ ¬(a = 0x0A ∧ d.getLsbD 7 = true) ∧
      ¬(a = 0x0C ∧ d.getLsbD 7 = true) ∧ ¬(a = 0x0C ∧ d.getLsbD 6 = true) ∧ ¬(a = 0x0D ∧ d.getLsbD 7 = true) := by
  simp only [plainWrite, Bool.and_eq_true, bne_iff_ne, Bool.not_eq_true', beq_iff_eq, ← Bool.not_eq_true, not_and,
    Bool.or_eq_true, not_or, imp_and, and_assoc]

/-- A write that no other row takes is WR's (rule R152). -/
theorem decodeWrite_plain {a : RegAddr} {d : Byte} (h : plainWrite a d = true) : decodeWrite a d = .wr a d := by
  obtain ⟨⟨h1, h4, h5, h9⟩, hA, hC7, hC6, hD⟩ := (plainWrite_iff a d).1 h
  rw [decodeWrite, if_neg h1, if_neg h4, if_neg h5, if_neg h9, if_neg hA, if_neg hC7, if_neg hC6, if_neg hD]

theorem decodeRead_plain {a : RegAddr} (h : plainRead a = true) : decodeRead a = .rd a := if_neg (bne_iff_ne.1 h)

theorem decodeWrite_comIrq (t : Bool) (m : BitVec 7) :
    decodeWrite 0x04 (topByte t m) = if t then .irqSet m else .irqClear m := by
  show (if _ then Instr.irqSet _ else Instr.irqClear _) = _
  rw [Machine.topByte_top, Machine.topByte_low]

theorem decodeWrite_divIrq (t : Bool) (m : BitVec 7) :
    decodeWrite 0x05 (topByte t m) = if t then .divIrqSet m else .divIrqClear m := by
  show (if _ then Instr.divIrqSet _ else Instr.divIrqClear _) = _
  rw [Machine.topByte_top, Machine.topByte_low]

/-- A strobe in bit 7 at FIFOLevelReg (rule R147). -/
theorem decodeWrite_flush (x : BitVec 7) : decodeWrite 0x0A (topByte true x) = .flushBuffer x := by revert x; decide

theorem decodeWrite_tStop (x : BitVec 7) : decodeWrite 0x0C (topByte true x) = .tStopNow x := by revert x; decide

theorem decodeWrite_tStart (x : BitVec 6) : decodeWrite 0x0C (1#2 ++ x) = .tStartNow x := by revert x; decide

theorem decodeWrite_startSend (a l : BitVec 3) : decodeWrite 0x0D (bfByte true a l) = .startSend a l := by
  revert a l; decide

theorem decodeCommand_powerDown (r : Bool) (c : BitVec 4) : decodeCommand (cmdByte r true c) = .powerDown r c := by
  revert r c; decide

/-- Settles O1, row by row. -/
theorem decodeEncodeRoundTrip : Obligations.DecodeEncodeRoundTrip := by
  intro i hi
  cases i with
  | rd a => exact (decode_read a 0).trans (congrArg Except.ok (decodeRead_plain hi))
  | wr a d => exact (decode_write a d).trans (congrArg Except.ok (decodeWrite_plain hi))
  | badAddr k a d => exact (decode_busWord k _ d).trans (congrArg Except.ok (decodeBus_badAddr k a d))
  | badAddr6 k a d => exact (decode_busWord k _ d).trans (congrArg Except.ok (decodeBus_badAddr6 k a d))
  | idle r | mem r | genRandId r | calcCrc r | transmit r | reserved5 r | reserved6 r | noCmdChange r | receive r
  | reserved9 r | reservedA r | reservedB r | transceive r | reservedD r | mfAuthent r | softReset r =>
    exact (decode_write 0x01 _).trans (by cases r <;> rfl)
  | powerDown r c => exact (decode_write 0x01 _).trans (congrArg Except.ok (decodeCommand_powerDown r c))
  | irqSet m | irqClear m => exact (decode_write 0x04 _).trans (congrArg Except.ok (decodeWrite_comIrq _ m))
  | divIrqSet m | divIrqClear m => exact (decode_write 0x05 _).trans (congrArg Except.ok (decodeWrite_divIrq _ m))
  | fifoPush d => exact decode_write 0x09 d
  | fifoPop => exact decode_read 0x09 0
  | flushBuffer x => exact (decode_write 0x0A _).trans (congrArg Except.ok (decodeWrite_flush x))
  | tStopNow x => exact (decode_write 0x0C _).trans (congrArg Except.ok (decodeWrite_tStop x))
  | tStartNow x => exact (decode_write 0x0C _).trans (congrArg Except.ok (decodeWrite_tStart x))
  | startSend a l => exact (decode_write 0x0D _).trans (congrArg Except.ok (decodeWrite_startSend a l))
  | assertReset | releaseReset | irqPin => rfl

/-- Settles O3: each word holds the fields that the rules give it, and the decoder computes on it. -/
theorem specWordsDecode : Obligations.SpecWordsDecode :=
  ⟨rfl, rfl, rfl, rfl, rfl, rfl, rfl, rfl, rfl, rfl, rfl, rfl, rfl, rfl, rfl, rfl, rfl, rfl, rfl, rfl, rfl, rfl, rfl, rfl⟩

end Sys2Proof
end

section
/-! The opcode table (rule R152): the row of the decoded operation matches the word, and no other row that matches it is as
specific. -/

namespace Sys2Proof

/-! ### Words and rows by their fields -/

theorem busWord_fields (w : BitVec 17) : busWord (w.getLsbD 16) (w.extractLsb' 8 8) (w.extractLsb' 0 8) = w := by
  refine BitVec.eq_of_getLsbD_eq fun i hi => ?_
  rw [busWord, BitVec.getLsbD_append, BitVec.getLsbD_append, BitVec.getLsbD_extractLsb', BitVec.getLsbD_extractLsb',
    BitVec.getLsbD_ofBool]
  by_cases hd : i < 8
  · simp [hd]
  · by_cases ha : i - 8 < 8
    · simp [hd, ha, show 8 + (i - 8) = i by omega]
    · obtain rfl : i = 16 := by omega
      rfl

theorem eq_iff_busWord_fields (w v : BitVec 17) :
    w = v ↔ w.getLsbD 16 = v.getLsbD 16 ∧ w.extractLsb' 8 8 = v.extractLsb' 8 8 ∧
      w.extractLsb' 0 8 = v.extractLsb' 0 8 := by
  refine ⟨fun h => h ▸ ⟨rfl, rfl, rfl⟩, fun ⟨hk, ha, hd⟩ => ?_⟩
  rw [← busWord_fields w, hk, ha, hd, busWord_fields]

/-- A row matches a word field by field (rule R158). -/
theorem rowMatches_busWord (r : Row 17) (k : Bool) (a d : Byte) :
    rowMatches 17 r (busWord k a d) = true ↔
      (k && r.mask.getLsbD 16) = r.pattern.getLsbD 16 ∧ a &&& r.mask.extractLsb' 8 8 = r.pattern.extractLsb' 8 8 ∧
        d &&& r.mask.extractLsb' 0 8 = r.pattern.extractLsb' 0 8 := by
  rw [rowMatches, beq_iff_eq, eq_iff_busWord_fields, BitVec.getLsbD_and, BitVec.extractLsb'_and, BitVec.extractLsb'_and,
    busWord_kind, busWord_addr, busWord_data]

/-- Two rows that match one word have the same pattern where both look. -/
theorem pattern_and_mask_of_matches {n : Nat} {r r' : Row n} {w : BitVec n} (h : rowMatches n r w = true)
    (h' : rowMatches n r' w = true) : r.pattern &&& r'.mask = r'.pattern &&& r.mask := by
  rw [rowMatches, beq_iff_eq] at h h'
  rw [← h, ← h', BitVec.and_assoc, BitVec.and_assoc, BitVec.and_comm r.mask]

/-! ### The most specific row -/

/-- The row of the plain reads. -/
abbrev readRow : Row 17 := ⟨"RD", 0x1C000, 0x00000⟩

/-- The row of the plain writes. -/
abbrev writeRow : Row 17 := ⟨"WR", 0x1C000, 0x10000⟩

/-- Operation `i` is well-formed, and its row is the one row with the most mask bits that matches `w` (rule R152). -/
def TakesRow (w : BitVec 17) (i : Instr) : Prop :=
  i.wellFormed = true ∧ ∃ r ∈ busRows, r.mnemonic = mnemonicOf i ∧ rowMatches 17 r w = true ∧
    ∀ r' ∈ busRows, rowMatches 17 r' w = true → r' = r ∨ maskOnes 17 r'.mask < maskOnes 17 r.mask

/-- No row but RD and WR shares a word with a row that is as specific. -/
theorem row_most_specific : ∀ r ∈ busRows, r.mask ≠ 0x1C000 → ∀ r' ∈ busRows,
    r.pattern &&& r'.mask = r'.pattern &&& r.mask → r' = r ∨ maskOnes 17 r'.mask < maskOnes 17 r.mask := by
  decide

/-- On a word that a row other than RD and WR matches, that row is the most specific one. -/
theorem takesRow_of_matches {w : BitVec 17} {i : Instr} (r : Row 17) (hr : r ∈ busRows ∧ r.mask ≠ 0x1C000)
    (hw : i.wellFormed = true) (hi : r.mnemonic = mnemonicOf i) (hm : rowMatches 17 r w = true) : TakesRow w i :=
  ⟨hw, r, hr.1, hi, hm, fun r' hr' hm' =>
    row_most_specific r hr.1 hr.2 r' hr' (pattern_and_mask_of_matches hm hm')⟩

/-- The writes at `a` whose data byte a row other than RD and WR matches. -/
theorem takesRow_write {a : RegAddr} {d : Byte} {i : Instr} (r : Row 17) (hr : r ∈ busRows ∧ r.mask ≠ 0x1C000)
    (hw : i.wellFormed = true) (hi : r.mnemonic = mnemonicOf i)
    (ha : r.pattern.getLsbD 16 = r.mask.getLsbD 16 ∧ carrier a &&& r.mask.extractLsb' 8 8 = r.pattern.extractLsb' 8 8)
    (hd : d &&& r.mask.extractLsb' 0 8 = r.pattern.extractLsb' 0 8) : TakesRow (busWord true (carrier a) d) i :=
  takesRow_of_matches r hr hw hi ((rowMatches_busWord r _ _ _).2 ⟨ha.1.symm, ha.2, hd⟩)

theorem and_topBit (d : Byte) : d &&& 0x80 = if d.getLsbD 7 then 0x80 else 0 := by revert d; decide

theorem and_topBits (d : Byte) : d &&& 0xC0 = (if d.getLsbD 7 then 0x80 else 0) ||| if d.getLsbD 6 then 0x40 else 0 := by
  revert d; decide

/-! ### Writes of CommandReg -/

/-- Every byte written to CommandReg has its row of format CMD (rules R143, R144). -/
theorem commandRow_of_byte : ∀ d : Byte, ∃ r ∈ commandRows, rowMatches 17 r (busWord true 0x01 d) = true ∧
    r.mnemonic = mnemonicOf (decodeCommand d) := by
  decide +kernel

theorem decodeCommand_wellFormed (d : Byte) : (decodeCommand d).wellFormed = true := by
  revert d; decide

theorem takesRow_command (d : Byte) : TakesRow (busWord true 0x01 d) (decodeCommand d) := by
  have hspecial : ∀ r ∈ commandRows, r.mask ≠ 0x1C000 := by decide
  obtain ⟨r, hr, hm, hi⟩ := commandRow_of_byte d
  exact takesRow_of_matches r ⟨List.mem_append_left _ (List.mem_append_right _ hr), hspecial r hr⟩
    (decodeCommand_wellFormed d) hi hm

/-! ### The plain rows -/

/-- A row that shares a word with RD is RD, or the row of an address that is not plain. -/
theorem row_beside_read : ∀ r ∈ busRows, readRow.pattern &&& r.mask = r.pattern &&& readRow.mask →
    r = readRow ∨ (r.mask.extractLsb' 8 8 = 0xFF ∧
      plainRead ((r.pattern.extractLsb' 8 8).extractLsb' 0 6) = false) := by
  decide

/-- A row that shares a word with WR is WR, or the row of an address and of data bits that are not plain. -/
theorem row_beside_write : ∀ r ∈ busRows, writeRow.pattern &&& r.mask = r.pattern &&& writeRow.mask →
    r = writeRow ∨ (r.mask.extractLsb' 8 8 = 0xFF ∧
      plainWrite ((r.pattern.extractLsb' 8 8).extractLsb' 0 6) (r.pattern.extractLsb' 0 8) = false) := by
  decide

/-- A plain write stays plain with fewer data bits: only bits that are set make a strobe. -/
theorem plainWrite_and {a : RegAddr} {d : Byte} (h : plainWrite a d = true) (m : Byte) :
    plainWrite a (d &&& m) = true := by
  have hbit : ∀ k, (d &&& m).getLsbD k = true → d.getLsbD k = true := fun k hk => by
    rw [BitVec.getLsbD_and, Bool.and_eq_true] at hk
    exact hk.1
  obtain ⟨hany, hA, hC7, hC6, hD⟩ := (plainWrite_iff a d).1 h
  exact (plainWrite_iff a _).2 ⟨hany, fun hs => hA ⟨hs.1, hbit 7 hs.2⟩, fun hs => hC7 ⟨hs.1, hbit 7 hs.2⟩,
    fun hs => hC6 ⟨hs.1, hbit 6 hs.2⟩, fun hs => hD ⟨hs.1, hbit 7 hs.2⟩⟩

theorem readRow_matches (a : RegAddr) (d : Byte) : rowMatches 17 readRow (busWord false (carrier a) d) = true := by
  have ha : carrier a &&& 0xC0 = 0 := by revert a; decide
  exact (rowMatches_busWord readRow _ _ _).2 ⟨rfl, ha, BitVec.and_zero⟩

theorem writeRow_matches (a : RegAddr) (d : Byte) : rowMatches 17 writeRow (busWord true (carrier a) d) = true := by
  have ha : carrier a &&& 0xC0 = 0 := by revert a; decide
  exact (rowMatches_busWord writeRow _ _ _).2 ⟨rfl, ha, BitVec.and_zero⟩

theorem takesRow_plainRead {a : RegAddr} (d : Byte) (h : plainRead a = true) :
    TakesRow (busWord false (carrier a) d) (.rd a) := by
  refine ⟨h, readRow, by decide, rfl, readRow_matches a d, fun r hr hm => .inl ?_⟩
  obtain he | ⟨hmask, hnot⟩ := row_beside_read r hr (pattern_and_mask_of_matches (readRow_matches a d) hm)
  · exact he
  · obtain ⟨_, ha, _⟩ := (rowMatches_busWord r _ _ _).1 hm
    rw [← ha, hmask, Machine.and_ff, carrier_addr, h] at hnot
    exact Bool.noConfusion hnot

theorem takesRow_plainWrite {a : RegAddr} {d : Byte} (h : plainWrite a d = true) :
    TakesRow (busWord true (carrier a) d) (.wr a d) := by
  refine ⟨h, writeRow, by decide, rfl, writeRow_matches a d, fun r hr hm => .inl ?_⟩
  obtain he | ⟨hmask, hnot⟩ := row_beside_write r hr (pattern_and_mask_of_matches (writeRow_matches a d) hm)
  · exact he
  · obtain ⟨_, ha, hd⟩ := (rowMatches_busWord r _ _ _).1 hm
    rw [← ha, ← hd, hmask, Machine.and_ff, carrier_addr, plainWrite_and h] at hnot
    exact Bool.noConfusion hnot

/-! ### Every word -/

theorem takesRow_decodeRead (a : RegAddr) (d : Byte) : TakesRow (busWord false (carrier a) d) (decodeRead a) := by
  by_cases ha : a = 0x09
  · subst ha
    exact takesRow_of_matches ⟨"FIFO_POP", 0x1FF00, 0x00900⟩ (by decide) rfl rfl
      ((rowMatches_busWord _ _ _ _).2 ⟨rfl, rfl, BitVec.and_zero⟩)
  · have h : plainRead a = true := bne_iff_ne.2 ha
    exact decodeRead_plain h ▸ takesRow_plainRead d h

theorem takesRow_comIrq {a : RegAddr} (ha : a = 0x04) (d : Byte) : TakesRow (busWord true (carrier a) d)
    (if d.getLsbD 7 then .irqSet (d.extractLsb' 0 7) else .irqClear (d.extractLsb' 0 7)) := by
  split
  next hs =>
    exact takesRow_write ⟨"IRQ_SET", 0x1FF80, 0x10480⟩ (by decide) rfl rfl (ha ▸ ⟨rfl, rfl⟩)
      ((and_topBit d).trans (if_pos hs))
  next hs =>
    exact takesRow_write ⟨"IRQ_CLEAR", 0x1FF80, 0x10400⟩ (by decide) rfl rfl (ha ▸ ⟨rfl, rfl⟩)
      ((and_topBit d).trans (if_neg hs))

theorem takesRow_divIrq {a : RegAddr} (ha : a = 0x05) (d : Byte) : TakesRow (busWord true (carrier a) d)
    (if d.getLsbD 7 then .divIrqSet (d.extractLsb' 0 7) else .divIrqClear (d.extractLsb' 0 7)) := by
  split
  next hs =>
    exact takesRow_write ⟨"DIVIRQ_SET", 0x1FF80, 0x10580⟩ (by decide) rfl rfl (ha ▸ ⟨rfl, rfl⟩)
      ((and_topBit d).trans (if_pos hs))
  next hs =>
    exact takesRow_write ⟨"DIVIRQ_CLEAR", 0x1FF80, 0x10500⟩ (by decide) rfl rfl (ha ▸ ⟨rfl, rfl⟩)
      ((and_topBit d).trans (if_neg hs))

/-- The decoder's conditions are the rows' patterns, in the order of the decoder. -/
theorem takesRow_decodeWrite (a : RegAddr) (d : Byte) : TakesRow (busWord true (carrier a) d) (decodeWrite a d) := by
  unfold decodeWrite
  split
  next h1 => exact h1 ▸ takesRow_command d
  next h1 =>
  split
  next h4 => exact takesRow_comIrq h4 d
  next h4 =>
  split
  next h5 => exact takesRow_divIrq h5 d
  next h5 =>
  split
  next h9 =>
    exact takesRow_write ⟨"FIFO_PUSH", 0x1FF00, 0x10900⟩ (by decide) rfl rfl (h9 ▸ ⟨rfl, rfl⟩) BitVec.and_zero
  next h9 =>
  split
  next hA =>
    exact takesRow_write ⟨"FLUSHBUFFER", 0x1FF80, 0x10A80⟩ (by decide) rfl rfl (hA.1 ▸ ⟨rfl, rfl⟩)
      ((and_topBit d).trans (if_pos hA.2))
  next hA =>
  split
  next hC7 =>
    exact takesRow_write ⟨"TSTOPNOW", 0x1FF80, 0x10C80⟩ (by decide) rfl rfl (hC7.1 ▸ ⟨rfl, rfl⟩)
      ((and_topBit d).trans (if_pos hC7.2))
  next hC7 =>
  split
  next hC6 =>
    obtain ⟨ha, h6⟩ := hC6
    have h7 : ¬d.getLsbD 7 = true := fun h7 => hC7 ⟨ha, h7⟩
    exact takesRow_write ⟨"TSTARTNOW", 0x1FFC0, 0x10C40⟩ (by decide) rfl rfl (ha ▸ ⟨rfl, rfl⟩)
      ((and_topBits d).trans (by rw [if_neg h7, if_pos h6]; rfl))
  next hC6 =>
  split
  next hD =>
    exact takesRow_write ⟨"STARTSEND", 0x1FF80, 0x10D80⟩ (by decide) rfl rfl (hD.1 ▸ ⟨rfl, rfl⟩)
      ((and_topBit d).trans (if_pos hD.2))
  next hD => exact takesRow_plainWrite ((plainWrite_iff a d).2 ⟨⟨h1, h4, h5, h9⟩, hA, hC7, hC6, hD⟩)

theorem carrier_of_register {a : Byte} (h7 : ¬a.getLsbD 7 = true) (h6 : ¬a.getLsbD 6 = true) :
    carrier (a.extractLsb' 0 6) = a := by
  revert a; decide

/-- Bits 7:6 of the carrier tell the rows of refused addresses from the registers' (rules R141, R158). -/
theorem takesRow_decodeBus (k : Bool) (a d : Byte) : TakesRow (busWord k a d) (decodeBus k a d) := by
  unfold decodeBus
  split
  next h7 =>
    exact takesRow_of_matches ⟨"BAD_ADDR", 0x08000, 0x08000⟩ (by decide) rfl rfl
      ((rowMatches_busWord _ _ _ _).2 ⟨Bool.and_false k, (and_topBit a).trans (if_pos h7), BitVec.and_zero⟩)
  next h7 =>
  split
  next h6 =>
    exact takesRow_of_matches ⟨"BAD_ADDR_6", 0x0C000, 0x04000⟩ (by decide) rfl rfl
      ((rowMatches_busWord _ _ _ _).2 ⟨Bool.and_false k,
        (and_topBits a).trans (by rw [if_neg h7, if_pos h6]; rfl), BitVec.and_zero⟩)
  next h6 =>
  split
  next hk =>
    have hw := takesRow_decodeWrite (a.extractLsb' 0 6) d
    rwa [carrier_of_register h7 h6, ← hk] at hw
  next hk =>
    have hr := takesRow_decodeRead (a.extractLsb' 0 6) d
    rwa [carrier_of_register h7 h6, ← Bool.eq_false_iff.2 hk] at hr

/-- Settles O2: every word is the word of its fields. -/
theorem everyBusWordTakesTheMostSpecificRow : Obligations.EveryBusWordTakesTheMostSpecificRow := by
  intro w
  rw [← busWord_fields w]
  exact ⟨_, decode_busWord _ _ _, takesRow_decodeBus _ _ _⟩

end Sys2Proof
end

section
/-! The strobes of ControlReg and the writes of BitFramingReg (rules R145, R148, R211, R212, R308, R426, R428, R429). -/

namespace Sys2Proof.Machine

open Sys2Proof

/-! ### The timer's strobes -/

theorem exec_tStopNow (x : BitVec 7) {s : State} (h : BusReady s) : exec (.tStopNow x) s = .next (timerStop s) := by
  have h7 : (1#1 ++ x : Byte).getLsbD 7 = true := by revert x; decide
  have he : controlWrite (1#1 ++ x) s = timerStop s := if_pos h7
  exact congrArg Host.Outcome.next ((busWrite_ready _ h).trans he)

theorem exec_tStartNow (x : BitVec 6) {s : State} (h : BusReady s) : exec (.tStartNow x) s = .next (timerStart s) := by
  have h7 : ¬(1#2 ++ x : Byte).getLsbD 7 = true := by revert x; decide
  have h6 : (1#2 ++ x : Byte).getLsbD 6 = true := by revert x; decide
  have he : controlWrite (1#2 ++ x) s = timerStart s := (if_neg h7).trans (if_pos h6)
  exact congrArg Host.Outcome.next ((busWrite_ready _ h).trans he)

theorem timerStart_of_gated {s : State} (h : s.tMode &&& 0x60 ≠ 0) : timerStart s = refuse .timerGated s :=
  if_pos fun h0 => h ((tGated_eq_zero s).1 h0)

/-- Settles O28, by the strobe that is set and by TGated. -/
theorem timerStrobesStartAndStopTheTimer : Obligations.TimerStrobesStartAndStopTheTimer := by
  refine fun x6 x7 s h => ⟨fun ungated => ?start, fun gated => ?refused, exec_tStopNow x7 h⟩
  case start => rw [exec_tStartNow x6 h, timerStart_of_ungated ungated]
  case refused => rw [exec_tStartNow x6 h, timerStart_of_gated gated]

/-! ### StartSend -/

theorem exec_startSend (a l : BitVec 3) {s : State} (h : BusReady s) :
    exec (.startSend a l) s = .next (bitFramingWrite true a l s) :=
  congrArg Host.Outcome.next (busWrite_ready _ h)

theorem bitFramingWrite_waiting (a l : BitVec 3) {s : State} (hc : s.cmd = .transceive) (hm : s.modem = .waitStart)
    (hp : s.powerDown = false) :
    bitFramingWrite true a l s = { s with startSend := true, rxAlign := a, txLastBits := l, txReq := true } :=
  if_pos ⟨hc, hm, hp⟩

theorem bitFramingWrite_not_waiting (a l : BitVec 3) {s : State}
    (h : s.cmd ≠ .transceive ∨ s.modem ≠ .waitStart ∨ s.powerDown = true) :
    bitFramingWrite true a l s = { s with startSend := true, rxAlign := a, txLastBits := l } :=
  if_neg fun ⟨hc, hm, hp⟩ => h.elim (· hc) fun h => h.elim (· hm) fun h => Bool.noConfusion (hp.symm.trans h)

theorem registerWrite_bitFraming_no_strobe {v : Byte} (s : State) (h : v.getLsbD 7 = false) :
    registerWrite bitFramingReg v s =
      { s with startSend := false, rxAlign := v.extractLsb' 4 3, txLastBits := v.extractLsb' 0 3 } := by
  show bitFramingWrite (v.getLsbD 7) _ _ s = _
  rw [h]
  rfl

/-- Settles O43, by whether Transceive waits to send, and without the strobe. -/
theorem startSendMakesARequest : Obligations.StartSendMakesARequest := by
  refine ⟨fun a l s h hc hm hp => ?request, fun a l s h hno => ?noRequest, fun v s h hv => ?noStrobe⟩
  case request => rw [exec_startSend a l h, bitFramingWrite_waiting a l hc hm hp]
  case noRequest => rw [exec_startSend a l h, bitFramingWrite_not_waiting a l hno]
  case noStrobe => exact exec_wr_eq h (registerWrite_bitFraming_no_strobe s hv)

end Sys2Proof.Machine
end

section
/-! The collision position HOST reads after a reception (rules R156, R314, R315): what the RX step leaves in CollReg and in
ErrorReg's CollErr. -/

namespace Sys2Proof.Machine

open Sys2Proof

/-- The position that CollReg and ErrorReg tell of: CollPos, with 0 for 32, where CollErr marks it valid (rule R156). -/
def collisionReport (s : State) : Option Nat :=
  if s.err.getLsbD 3 = true ∧ s.collPosNotValid = false then some (if s.collPos = 0 then 32 else s.collPos.toNat)
  else none

theorem collisionReport_congr {s t : State} (he : t.err.getLsbD 3 = s.err.getLsbD 3)
    (hn : t.collPosNotValid = s.collPosNotValid) (hp : t.collPos = s.collPos) : collisionReport t = collisionReport s := by
  rw [collisionReport, he, hn, hp, collisionReport]

/-! ### HOST's side: the two bytes -/

theorem readsAs_collErr {s : State} (h : BusReady s) : ReadsAs 0x06 0x08 (if s.err.getLsbD 3 then 0x08 else 0) s := by
  refine readsAs_of_shown h (by decide) (by decide) fun _ => ?_
  show s.err &&& 0x08 = _
  generalize s.err = e
  revert e
  decide

/-- The two bytes tell HOST what the fields they show tell. -/
theorem hostCollisionPosition_of_shown {coll err : Byte} {v n c : Bool} {p : BitVec 5}
    (hcoll : coll &&& 0xBF = (if v then 0x80 else 0) ||| (if n then 0x20 else 0) ||| p.setWidth 8)
    (herr : err &&& 0x08 = if c then 0x08 else 0) :
    hostCollisionPosition coll err = if c = true ∧ n = false then some (if p = 0 then 32 else p.toNat) else none := by
  have hc : err.getLsbD 3 = c := by revert err c; decide
  have hn : coll.getLsbD 5 = n := by
    have h5 : coll.getLsbD 5 = (coll &&& 0xBF).getLsbD 5 := by simp
    rw [h5, hcoll]
    clear hcoll h5
    revert v n p
    decide
  have hp : coll &&& 0x1F = p.setWidth 8 := by
    have hlow : coll &&& 0x1F = coll &&& 0xBF &&& 0x1F := (BitVec.and_assoc coll 0xBF 0x1F).symm
    rw [hlow, hcoll]
    clear hcoll hlow hn
    revert v n p
    decide
  have hz : p.setWidth 8 = (0 : Byte) ↔ p = 0 := by bv_omega
  have ht : (p.setWidth 8).toNat = p.toNat := BitVec.toNat_setWidth_of_le (by decide)
  simp only [hostCollisionPosition, hc, hn, hp, hz, ht]

/-- HOST's reads of CollReg and ErrorReg answer what the state tells. -/
theorem hostReads_collisionReport {s : State} (h : BusReady s) :
    ∃ coll err : Byte, exec (.rd 0x0E) s = .next { s with busOut := coll, draws := s.draws + 1 } ∧
      exec (.rd 0x06) s = .next { s with busOut := err, draws := s.draws + 1 } ∧
      hostCollisionPosition coll err = collisionReport s := by
  obtain ⟨coll, hcoll, hshown⟩ := readsAs_coll h
  obtain ⟨err, herr, hmark⟩ := readsAs_collErr h
  exact ⟨coll, err, hcoll, herr, hostCollisionPosition_of_shown hshown hmark⟩

/-! ### The RX step -/

theorem engineStep_rx {s : State} {r : Reply} (h : EngineReady s) (hc : s.cmd = .transceive) (hm : s.modem = .waitData)
    (hr : s.pendingResp = some r) (ho : s.rcvOff = false) : engineStep .rx s = rxEffect s :=
  engineStep_of_enabled (by simp [engineEnabled, (engineRuns_iff s).2 h, hc, hm, hr, ho])

theorem busReady_rxEffect {s : State} (h : EngineReady s) : BusReady (rxEffect s) := by
  rw [rxEffect_frame]
  exact ⟨h.released, h.settled⟩

/-- Storing the reply may set BufferOvfl, which is not CollErr. -/
theorem storeReply_collErr (r : Reply) (s : State) : (storeReply r s).err.getLsbD 3 = s.err.getLsbD 3 := by
  unfold storeReply
  rw [fifoPushAll_eq]
  dsimp only
  split
  · simp
  · rfl

theorem flagReply_collErr (r : Reply) (s : State) :
    (flagReply r s).err.getLsbD 3 = (collision (firstCollision r.syms) s).err.getLsbD 3 := by
  unfold flagReply
  dsimp only
  split <;> split <;> simp

/-- What the collision detect tells is what the RX step leaves. -/
theorem collisionReport_rxEffect {s : State} {r : Reply} (h : s.pendingResp = some r) :
    collisionReport (rxEffect s) =
      collisionReport (collision (firstCollision r.syms) (storeReply r { s with pendingResp := none })) := by
  simp only [rxEffect, h]
  generalize storeReply r { s with pendingResp := none } = s₁
  refine collisionReport_congr ?_ ?_ ?_
  · rw [withAlerts_eq, raiseCom_err, logEvent_err, stopTimerOnReply_frame, flagReply_collErr]
  · rw [withAlerts_eq, raiseCom_collPosNotValid, logEvent_collPosNotValid, stopTimerOnReply_frame, flagReply_frame]
  · rw [withAlerts_eq, raiseCom_collPos, logEvent_collPos, stopTimerOnReply_frame, flagReply_frame]

/-- A position of 1 to 32 comes back from its five bits, 0 standing for 32. -/
theorem collPos_of_position {p : Nat} (h : 1 ≤ p) (h' : p ≤ 32) :
    (if BitVec.ofNat 5 (p % 32) = 0 then 32 else (BitVec.ofNat 5 (p % 32)).toNat) = p := by
  obtain rfl | hlt := Nat.eq_or_lt_of_le h'
  · rfl
  · rw [Nat.mod_eq_of_lt hlt, if_neg, BitVec.toNat_ofNat, Nat.mod_eq_of_lt hlt]
    bv_omega

/-- The collision detect tells the first collision's position in the grid, where CollReg has a number for it. -/
theorem collisionReport_collision (r : Reply) {s : State} (h : .x ∉ r.syms → s.err.getLsbD 3 = false) :
    collisionReport (collision (firstCollision r.syms) s) =
      if .x ∈ r.syms ∧ s.rxAlign.toNat + r.syms.idxOf .x + 1 ≤ 32 then some (s.rxAlign.toNat + r.syms.idxOf .x + 1)
      else none := by
  rw [firstCollision_eq]
  by_cases hx : .x ∈ r.syms
  · rw [if_pos (List.contains_iff_mem.2 hx)]
    show collisionReport (if s.rxAlign.toNat + r.syms.idxOf .x + 1 ≤ 32 then _ else _) = _
    by_cases hp : s.rxAlign.toNat + r.syms.idxOf .x + 1 ≤ 32
    · have hpos : 1 ≤ s.rxAlign.toNat + r.syms.idxOf .x + 1 := Nat.le_add_left 1 _
      rw [if_pos hp, if_pos ⟨hx, hp⟩]
      refine (if_pos ⟨?_, rfl⟩).trans (congrArg some (collPos_of_position hpos hp))
      simp
    · rw [if_neg hp, if_neg fun hxp => hp hxp.2]
      exact if_neg fun hv => Bool.noConfusion hv.2
  · rw [if_neg (fun hc => hx (List.contains_iff_mem.1 hc)), if_neg fun hxp => hx hxp.1]
    exact if_neg fun hv => Bool.noConfusion (hv.1.symm.trans (h hx))

/-- Settles O49: HOST reads what the RX step leaves, which is what the collision detect tells. -/
theorem hostReadsTheCollisionPosition : Obligations.HostReadsTheCollisionPosition := by
  refine ⟨⟨by decide, by decide, by decide, by decide, by decide⟩, fun s r h hc hm hr ho herr => ?_⟩
  dsimp only
  have hstored : .x ∉ r.syms → (storeReply r { s with pendingResp := none }).err.getLsbD 3 = false := fun hx =>
    (storeReply_collErr r _).trans (herr hx)
  have halign : (storeReply r { s with pendingResp := none }).rxAlign = s.rxAlign := by rw [storeReply_frame]
  obtain ⟨coll, err, hcoll, he, hpos⟩ := hostReads_collisionReport (busReady_rxEffect h)
  rw [engineStep_rx h hc hm hr ho]
  refine ⟨coll, err, hcoll, he, ?_⟩
  rw [hpos, collisionReport_rxEffect hr, collisionReport_collision r hstored, halign]

end Sys2Proof.Machine
end

section
/-! Writes of CommandReg (rules R203, R220 to R229, R251 to R253, R301, R312, R318, R319): what a command code does in a
chip that is on and in one in soft power-down, by the class of the code. -/

namespace Sys2Proof.Machine

open Sys2Proof

/-! ### A command code in a chip that is on -/

theorem execCommand_awake (r : Bool) (c : BitVec 4) {s : State} (h : CommandReady s) :
    execCommand r c s = .next (writeCommandCode c (setRcvOff r s)) :=
  congrArg Host.Outcome.next ((busWrite_ready _ h.toBusReady).trans (commandWrite_awake r c h.awake))

/-- The code of a command stops the active one, clears the error flags and starts its own (rule R203). -/
theorem execCommand_start (r : Bool) {c : BitVec 4} {k : Cmd} {s : State} (h : CommandReady s)
    (hc : cmdClass c = .start k) :
    execCommand r c s = .next (startCommandEngine k { s with
      rcvOff := r, cmd := .idle, modem := .idle, txReq := false, pendingResp := none, err := s.err &&& 0x40 }) := by
  rw [execCommand_awake r c h, writeCommandCode, hc]
  rfl

theorem execCommand_noCmdChange (r : Bool) {c : BitVec 4} {s : State} (h : CommandReady s)
    (hc : cmdClass c = .noCmdChange) : execCommand r c s = .next (setRcvOff r s) := by
  rw [execCommand_awake r c h, writeCommandCode, hc]

theorem execCommand_outsideTheBlock (r : Bool) {c : BitVec 4} {s : State} (h : CommandReady s)
    (hc : cmdClass c = .outsideTheBlock) :
    execCommand r c s = .next (refuse .commandOutsideTheBlock (setRcvOff r s)) := by
  rw [execCommand_awake r c h, writeCommandCode, hc]

theorem execCommand_reserved (r : Bool) {c : BitVec 4} {s : State} (h : CommandReady s)
    (hc : cmdClass c = .reserved) : execCommand r c s = .next (refuse .reservedCommand (setRcvOff r s)) := by
  rw [execCommand_awake r c h, writeCommandCode, hc]

/-- Settles O31, by the classes of the two codes. -/
theorem idleStopsAndNoCmdChangeKeepsTheCommand : Obligations.IdleStopsAndNoCmdChangeKeepsTheCommand := fun r _ h =>
  ⟨execCommand_start r h cmdClass_idle, execCommand_noCmdChange r h cmdClass_noCmdChange⟩

/-- The preset by the low bits of ModeReg (rules R51, R251). -/
theorem crcPreset_of_mode {s : State} {p : Word16} (h : (s.mode &&& 3 = 0 ∧ p = 0x0000) ∨
    (s.mode &&& 3 = 1 ∧ p = 0x6363) ∨ (s.mode &&& 3 = 2 ∧ p = 0xA671) ∨ (s.mode &&& 3 = 3 ∧ p = 0xFFFF)) :
    crcPreset s = p := by
  have low : ∀ m : Byte, m.extractLsb' 0 2 = (m &&& 3).setWidth 2 := by decide
  rw [crcPreset, low]
  obtain ⟨hm, rfl⟩ | ⟨hm, rfl⟩ | ⟨hm, rfl⟩ | ⟨hm, rfl⟩ := h <;> rw [hm] <;> rfl

theorem startCalcCrc_of_lsbFirst {s : State} (h : s.mode.getLsbD 7 = false) :
    startCalcCrc s = { s with cmd := .calcCrc, crc := crcPreset s, crcReady := false } :=
  if_neg (by rw [msbFirst, h]; decide)

theorem startCalcCrc_of_msbFirst {s : State} (h : s.mode.getLsbD 7 = true) :
    startCalcCrc s = refuse .crcWithMsbFirst s :=
  if_pos h

/-- Settles O32, by MSBFirst. -/
theorem calcCrcStartsFromThePreset : Obligations.CalcCrcStartsFromThePreset := by
  intro r p s h
  have start := execCommand_start r h cmdClass_calcCrc
  refine ⟨fun lsb preset => start.trans (congrArg _ ?_), fun msb => start.trans (congrArg _ ?_)⟩
  · obtain rfl := crcPreset_of_mode preset
    exact startCalcCrc_of_lsbFirst lsb
  · exact startCalcCrc_of_msbFirst msb

/-- Settles O33, by the start of each command. -/
theorem transceiveAndSoftResetStart : Obligations.TransceiveAndSoftResetStart := fun r _ h =>
  ⟨execCommand_start r h cmdClass_transceive, execCommand_start r h cmdClass_softReset⟩

/-- Settles O34, by the class of each code. -/
theorem otherCommandCodesAreRefused : Obligations.OtherCommandCodesAreRefused := by
  intro r s h
  have outside (c : BitVec 4) (hc : cmdClass c = .outsideTheBlock) := execCommand_outsideTheBlock r h hc
  have reserved (c : BitVec 4) (hc : cmdClass c = .reserved) := execCommand_reserved r h hc
  exact ⟨outside 0x1 rfl, outside 0x2 rfl, outside 0x4 rfl, outside 0x8 rfl, outside 0xE rfl, reserved 0x5 rfl,
    reserved 0x6 rfl, reserved 0x9 rfl, reserved 0xA rfl, reserved 0xB rfl, reserved 0xD rfl⟩

/-! ### Entering soft power-down (rules R228, R312) -/

theorem exec_powerDown (r : Bool) (c : BitVec 4) {s : State} (h : CommandReady s) :
    exec (.powerDown r c) s = .next (enterPowerDown c (setRcvOff r s)) :=
  congrArg Host.Outcome.next ((busWrite_ready _ h.toBusReady).trans (commandWrite_powerDown r c h.awake))

theorem enterPowerDown_refused {c : BitVec 4} (s : State) (h0 : c ≠ 0) (h7 : c ≠ 7) :
    enterPowerDown c s = refuse .commandWithPowerDown s :=
  if_pos ((cmdClass_admitted c).2 ⟨h0, h7⟩)

/-- Settles O35, by the code. -/
theorem powerDownEntry : Obligations.PowerDownEntry := by
  refine fun r c s h => ⟨?idle, ?noCmdChange, fun h0 h7 => ?other⟩
  case idle | noCmdChange =>
    rintro rfl
    exact exec_powerDown r _ h
  case other => rw [exec_powerDown r c h, enterPowerDown_refused _ h0 h7, setRcvOff]

/-! ### CommandReg in soft power-down (rules R228, R432) -/

theorem setRcvOff_of_no_reply (r : Bool) {s : State} (h : s.pendingResp = none) :
    setRcvOff r s = { s with rcvOff := r } := by
  rw [setRcvOff, h, ite_self, ← h]

theorem execCommand_asleep (r : Bool) (c : BitVec 4) {s : State} (h : BusReady s) (hd : s.powerDown = true)
    (hr : s.pendingResp = none) :
    execCommand r c s = .next (commandWhilePoweredDown false c { s with rcvOff := r }) := by
  rw [execCommand, busWrite_ready _ h, commandWrite_asleep r false c hd, setRcvOff_of_no_reply r hr]

theorem exec_powerDown_asleep (r : Bool) (c : BitVec 4) {s : State} (h : BusReady s) (hd : s.powerDown = true)
    (hr : s.pendingResp = none) :
    exec (.powerDown r c) s = .next (commandWhilePoweredDown true c { s with rcvOff := r }) := by
  rw [exec, execPowerDown, busWrite_ready _ h, commandWrite_asleep r true c hd, setRcvOff_of_no_reply r hr]

theorem commandWhilePoweredDown_refused (p : Bool) {c : BitVec 4} (s : State) (h0 : c ≠ 0) (h7 : c ≠ 7) :
    commandWhilePoweredDown p c s = refuse .commandWhilePoweredDown s :=
  if_pos ((cmdClass_admitted c).2 ⟨h0, h7⟩)

theorem commandWhilePoweredDown_admitted (p : Bool) {c : BitVec 4} (s : State) (h : c = 0 ∨ c = 7) :
    commandWhilePoweredDown p c s = if p then s else { s with powerDown := false, pdBusy := true } :=
  if_neg fun hn => have ⟨h0, h7⟩ := (cmdClass_admitted c).1 hn; h.elim h0 h7

/-- Settles O36: by whether the code is one of the two admitted, and by PowerDown. -/
theorem commandsInSoftPowerDown : Obligations.CommandsInSoftPowerDown := by
  intro r c s h hd hr
  have wakes (c : BitVec 4) (hc : c = 0 ∨ c = 7) :
      execCommand r c s = .next { s with rcvOff := r, powerDown := false, pdBusy := true } := by
    rw [execCommand_asleep r c h hd hr, commandWhilePoweredDown_admitted false _ hc]
    rfl
  have refused (c : BitVec 4) (h0 : c ≠ 0) (h7 : c ≠ 7) :
      execCommand r c s = .next (refuse .commandWhilePoweredDown { s with rcvOff := r }) := by
    rw [execCommand_asleep r c h hd hr, commandWhilePoweredDown_refused false _ h0 h7]
  refine ⟨wakes 0 (.inl rfl), wakes 7 (.inr rfl), fun hc => ?stays, fun h0 h7 => ?refusedAsleep, fun i hi => ?others⟩
  case stays =>
    rw [exec_powerDown_asleep r c h hd hr, commandWhilePoweredDown_admitted true _ hc]
    rfl
  case refusedAsleep => rw [exec_powerDown_asleep r c h hd hr, commandWhilePoweredDown_refused true _ h0 h7]
  case others =>
    have row : ∃ c, c ≠ 0 ∧ c ≠ 7 ∧ exec i s = execCommand r c s := by
      simp only [List.mem_cons, List.not_mem_nil, or_false] at hi
      obtain rfl | rfl | rfl | rfl | rfl | rfl | rfl | rfl | rfl | rfl | rfl | rfl | rfl | rfl := hi
      all_goals exact ⟨_, by decide, by decide, rfl⟩
    obtain ⟨c, h0, h7, he⟩ := row
    exact he.trans (refused c h0 h7)

end Sys2Proof.Machine
end

section
/-! What a chip that is not running leaves alone: bus writes during a reset or wake-up (rule R201) and the steps of
ENGINE in either power-down (rules R228, R404, R431, R432). -/

namespace Sys2Proof.Machine

open Sys2Proof

/-! ### Bus writes during a reset or wake-up -/

/-- Which words are bus writes, by the kind bit and the address (rules R141, R158). -/
theorem isBusWrite_of_encode {i : Instr} {k : Bool} {a d : Byte} (h : encode i = .bus (busWord k a d)) :
    isBusWrite i = (k && !a.getLsbD 7 && !a.getLsbD 6) := by
  have addr (j : Nat) (hj : j < 8) : (busWord k a d).getLsbD (8 + j) = a.getLsbD j := by
    have bit := congrArg (fun b : Byte => b.getLsbD j) (busWord_addr k a d)
    rwa [BitVec.getLsbD_extractLsb', decide_eq_true hj, Bool.true_and] at bit
  rw [isBusWrite, h]
  dsimp only
  rw [busWord_kind, addr 7 (by decide), addr 6 (by decide)]

theorem isBusWrite_read {i : Instr} {a d : Byte} (h : encode i = .bus (busWord false a d)) : isBusWrite i = false :=
  isBusWrite_of_encode h

theorem isBusWrite_badAddr (k : Bool) (a : BitVec 7) (d : Byte) : isBusWrite (.badAddr k a d) = false := by
  rw [isBusWrite_of_encode rfl, topByte_top, Bool.not_true, Bool.and_false, Bool.false_and]

theorem isBusWrite_badAddr6 (k : Bool) (a : BitVec 6) (d : Byte) : isBusWrite (.badAddr6 k a d) = false := by
  have h6 : (1#2 ++ a : Byte).getLsbD 6 = true := by revert a; decide
  rw [isBusWrite_of_encode rfl, h6, Bool.not_true, Bool.and_false]

/-- A bus write stands behind the guard of rule R201. -/
theorem exec_of_isBusWrite {i : Instr} (h : isBusWrite i = true) :
    ∃ f : State → State, ∀ s, exec i s = .next (busWrite f s) := by
  cases i with
  | rd | fifoPop => exact absurd ((isBusWrite_read rfl).symm.trans h) Bool.false_ne_true
  | badAddr k a d => exact absurd ((isBusWrite_badAddr k a d).symm.trans h) Bool.false_ne_true
  | badAddr6 k a d => exact absurd ((isBusWrite_badAddr6 k a d).symm.trans h) Bool.false_ne_true
  | assertReset | releaseReset | irqPin => exact absurd h Bool.false_ne_true
  | wr | idle | mem | genRandId | calcCrc | transmit | reserved5 | reserved6 | noCmdChange | receive | reserved9
  | reservedA | reservedB | transceive | reservedD | mfAuthent | softReset | powerDown | irqSet | irqClear | divIrqSet
  | divIrqClear | fifoPush | flushBuffer | tStopNow | tStartNow | startSend => exact ⟨_, fun _ => rfl⟩

/-- Settles O18, by the guard of the bus write. -/
theorem writesAreIgnoredWhileBusy : Obligations.WritesAreIgnoredWhileBusy := by
  intro i s hi hn hb
  obtain ⟨f, he⟩ := exec_of_isBusWrite hi
  rw [he, busWrite_busy f hn hb]

/-! ### ENGINE in power-down -/

theorem engineStep_of_powerDown (e : EngineStep) {s : State} (hp : s.powerDown = true) : engineStep e s = s := by
  refine engineStep_of_disabled (Bool.eq_false_iff.2 fun he => ?_)
  have ha := engineAwake_of_enabled he
  rw [engineAwake, hp, Bool.not_true, Bool.and_false] at ha
  exact Bool.noConfusion ha

/-- Settles O54, by which of the two power-downs it is. -/
theorem noEngineStepInPowerDown : Obligations.NoEngineStepInPowerDown := fun e _ h =>
  h.elim (engineStep_of_held e) (engineStep_of_powerDown e)

end Sys2Proof.Machine
end

section
/-! Writes of ComIrqReg and DivIrqReg (rules R146, R204, R205). -/

namespace Sys2Proof.Machine

open Sys2Proof

/-- A marked flag is set: the OR with its mask bit. -/
theorem divIrqWrite_set (m : BitVec 7) (s : State) :
    divIrqWrite true m s = { s with
      mfinActIrq := s.mfinActIrq || m.getLsbD 4, crcIrq := s.crcIrq || m.getLsbD 2 } := by
  have set : ∀ b f : Bool, (if b then true else f) = (f || b) := by decide
  rw [divIrqWrite, set, set]

/-- A marked flag is cleared: the AND with the complement of its mask bit. -/
theorem divIrqWrite_clear (m : BitVec 7) (s : State) :
    divIrqWrite false m s = { s with
      mfinActIrq := s.mfinActIrq && !m.getLsbD 4, crcIrq := s.crcIrq && !m.getLsbD 2 } := by
  have clear : ∀ b f : Bool, (if b then false else f) = (f && !b) := by decide
  rw [divIrqWrite, clear, clear]

/-- Settles O21, row by row. -/
theorem flagWritesSetOrClear : Obligations.FlagWritesSetOrClear := by
  intro m s h
  have set := (busWrite_ready _ h).trans (divIrqWrite_set m s)
  have clear := (busWrite_ready _ h).trans (divIrqWrite_clear m s)
  exact ⟨congrArg _ (busWrite_ready _ h), congrArg _ (busWrite_ready _ h), congrArg _ set, congrArg _ clear⟩

end Sys2Proof.Machine
end

section
/-! The CRC_A function (rules R250, R266): the shift loop and the byte-wise form, and the residue of a frame that
carries its own CRC. -/

namespace Sys2Proof.Machine

open Sys2Proof

/-! ### The two bytes of the register -/

theorem highByte_append_lowByte (w : Word16) : highByte w ++ lowByte w = w :=
  (BitVec.extractLsb'_append_extractLsb'_eq_extractLsb' rfl).trans BitVec.extractLsb'_eq_self

theorem lowByte_setWidth (b : Byte) : lowByte (b.setWidth 16) = b := by revert b; decide

theorem highByte_setWidth (b : Byte) : highByte (b.setWidth 16) = 0 := by revert b; decide

/-- The high byte above the low byte, as an XOR. -/
theorem word_eq_xor (w : Word16) : w = (highByte w).setWidth 16 <<< 8 ^^^ (lowByte w).setWidth 16 := by
  refine BitVec.eq_of_getLsbD_eq fun i hi => ?_
  by_cases low : i < 8
  · simp [highByte, lowByte, low, hi]
  · have top : i - 8 < 8 := by omega
    have pos : 8 + (i - 8) = i := by omega
    simp [highByte, lowByte, low, hi, top, pos]

/-! ### One step -/

/-- The register and the byte meet in the low byte; the high byte only moves down (rule R250). -/
theorem crcAStep_eq (crc : Word16) (b : Byte) :
    crcAStep crc b = (highByte crc).setWidth 16 ^^^ crcShifts 8 ((lowByte crc ^^^ b).setWidth 16) := by
  calc crcAStep crc b
      = crcShifts 8 ((highByte crc).setWidth 16 <<< 8 ^^^ (lowByte crc ^^^ b).setWidth 16) := by
        rw [crcAStep, BitVec.setWidth_xor, ← BitVec.xor_assoc, ← word_eq_xor]
    _ = _ := by rw [crcShifts_xor, crcShifts_of_high]

/-- Eight shifts of a byte in the low half, as the byte-wise form writes them (rule R250). -/
theorem crcShifts_of_low : ∀ b : Byte,
    crcShifts 8 (b.setWidth 16) =
      ((b ^^^ (b <<< 4)).setWidth 16 <<< 8) ^^^ ((b ^^^ (b <<< 4)).setWidth 16 <<< 3) ^^^
        ((b ^^^ (b <<< 4)).setWidth 16 >>> 4) := by decide +kernel

theorem crcAStep_bytewise (crc : Word16) (b : Byte) : crcAStep crc b = crcAStepBytewise crc b := by
  have high : (highByte crc).setWidth 16 = crc >>> 8 := by
    refine BitVec.eq_of_toNat_eq ?_
    simp only [highByte_eq, BitVec.toNat_setWidth, BitVec.toNat_ushiftRight, Nat.shiftRight_eq_div_pow]
    omega
  rw [crcAStep_eq, crcShifts_of_low, high, BitVec.xor_comm (lowByte crc) b]
  simp only [crcAStepBytewise, lowByte, BitVec.xor_assoc]

/-- One shift, in the words of rule R250. -/
theorem crcShift_eq (c : Word16) : crcShift c = if c &&& 1 = 1 then (c >>> 1) ^^^ 0x8408 else c >>> 1 := by
  have bit : c.getLsbD 0 = true ↔ c &&& 1 = 1 := by
    have one : c &&& 1 = (BitVec.ofBool (c.getLsbD 0)).setWidth 16 := BitVec.and_one_eq_setWidth_ofBool_getLsbD
    rw [one]
    cases c.getLsbD 0 <;> decide
  simp only [crcShift, bit]

/-- Settles O38. -/
theorem crcAIsTheRulesFunction : Obligations.CrcAIsTheRulesFunction := by
  refine ⟨fun crc b => ?_, crcAStep_bytewise, fun _ => rfl, fun init bs b => crcA_append init bs [b], by decide +kernel⟩
  simp only [← crcShift_eq]
  rfl

/-! ### The residue -/

/-- A step on the register's own low byte leaves its high byte. -/
theorem crcAStep_lowByte (crc : Word16) : crcAStep crc (lowByte crc) = (highByte crc).setWidth 16 := by
  have zero : crcShifts 8 0 = 0 := by decide
  rw [crcAStep_eq, BitVec.xor_self]
  exact (congrArg _ zero).trans BitVec.xor_zero

/-- Settles O39: the low byte leaves the high byte in the register, and the high byte then leaves nothing. -/
theorem crcResidueIsZero : Obligations.CrcResidueIsZero := by
  intro d
  rw [crcA_append]
  generalize crcA 0x6363 d = c
  calc crcA c [lowByte c, highByte c]
      = crcAStep (crcAStep c (lowByte c)) (highByte c) := rfl
    _ = crcAStep ((highByte c).setWidth 16) (lowByte ((highByte c).setWidth 16)) := by
        rw [crcAStep_lowByte, lowByte_setWidth]
    _ = (highByte ((highByte c).setWidth 16)).setWidth 16 := crcAStep_lowByte _
    _ = 0 := by rw [highByte_setWidth]; rfl

end Sys2Proof.Machine
end

section
/-! CalcCRC's ENGINE steps (rules R250, R252, R254, R256, R259): when each is enabled, its effect, and the whole FIFO
through the coprocessor. -/

namespace Sys2Proof.Machine

open Sys2Proof

/-! ### The two steps -/

theorem engineEnabled_crcByte (s : State) :
    engineEnabled .crcByte s = true ↔ EngineReady s ∧ s.cmd = .calcCrc ∧ s.fifo ≠ [] := by
  simp only [engineEnabled, Bool.and_eq_true, engineRuns_iff, beq_iff_eq, Bool.not_eq_true', List.isEmpty_eq_false_iff,
    and_assoc]

theorem engineEnabled_crcDone (s : State) :
    engineEnabled .crcDone s = true ↔ EngineReady s ∧ s.cmd = .calcCrc ∧ s.fifo = [] ∧ s.crcReady = false := by
  simp only [engineEnabled, Bool.and_eq_true, engineRuns_iff, beq_iff_eq, Bool.not_eq_true', List.isEmpty_iff,
    and_assoc]

theorem crcByteEffect_of_cons {b : Byte} {bs : List Byte} {s : State} (h : s.fifo = b :: bs) :
    crcByteEffect s = { s with
      crc := crcAStep s.crc b, fifo := bs, hist := s.hist ++ [.crcByte b],
      comIrq := s.comIrq ||| alertRise s bs s.waterLevel } := by
  unfold crcByteEffect
  rw [h]
  dsimp only
  rw [withAlerts_eq, risenAlerts_eq]
  simp only [logEvent, fifoDropOldest, h, List.tail_cons]

theorem engineStep_crcByte {b : Byte} {bs : List Byte} {s : State} (ready : EngineReady s) (hc : s.cmd = .calcCrc)
    (hf : s.fifo = b :: bs) : engineStep .crcByte s = { s with
      crc := crcAStep s.crc b, fifo := bs, hist := s.hist ++ [.crcByte b],
      comIrq := s.comIrq ||| alertRise s bs s.waterLevel } :=
  (engineStep_of_enabled ((engineEnabled_crcByte s).2 ⟨ready, hc, by simp [hf]⟩)).trans (crcByteEffect_of_cons hf)

theorem engineStep_crcDone {s : State} (ready : EngineReady s) (hc : s.cmd = .calcCrc) (hf : s.fifo = [])
    (hr : s.crcReady = false) :
    engineStep .crcDone s = { s with crcResult := s.crc, crcReady := true, crcIrq := true } :=
  engineStep_of_enabled ((engineEnabled_crcDone s).2 ⟨ready, hc, hf, hr⟩)

theorem engineStep_crcByte_of_off {s : State} (off : s.cmd ≠ .calcCrc ∨ s.fifo = [] ∨ ¬EngineReady s) :
    engineStep .crcByte s = s := by
  refine engineStep_of_disabled (Bool.eq_false_iff.2 fun on => ?_)
  obtain ⟨ready, hc, hf⟩ := (engineEnabled_crcByte s).1 on
  obtain h | h | h := off
  · exact h hc
  · exact hf h
  · exact h ready

theorem engineStep_crcDone_of_off {s : State}
    (off : s.cmd ≠ .calcCrc ∨ s.fifo ≠ [] ∨ s.crcReady = true ∨ ¬EngineReady s) : engineStep .crcDone s = s := by
  refine engineStep_of_disabled (Bool.eq_false_iff.2 fun on => ?_)
  obtain ⟨ready, hc, hf, hr⟩ := (engineEnabled_crcDone s).1 on
  obtain h | h | h | h := off
  · exact h hc
  · exact h hf
  · exact Bool.noConfusion (hr.symm.trans h)
  · exact h ready

/-- Settles O40. -/
theorem crcEngineSteps : Obligations.CrcEngineSteps :=
  ⟨fun _ _ _ => engineStep_crcByte, fun _ => engineStep_crcByte_of_off, fun _ => engineStep_crcDone,
    fun _ => engineStep_crcDone_of_off⟩

/-! ### The whole FIFO -/

/-- A FIFO that shrinks raises LoAlert at most (rule R112). -/
theorem alertRise_of_shrunk (b : Byte) {bs : List Byte} {s : State} (h : s.fifo = b :: bs) :
    alertRise s bs s.waterLevel &&& 0x7B = 0 := by
  have no_hi : ¬(s.waterLevel.toNat < Config.fifoDepth - s.fifo.length ∧
      Config.fifoDepth - bs.length ≤ s.waterLevel.toNat) := by
    rw [h, List.length_cons]
    omega
  rw [alertRise, if_neg no_hi]
  split <;> decide

/-- One CRC_BYTE for each byte of the FIFO `bs` leaves the CRC of the bytes in the register. -/
theorem engineSteps_crcByte (bs : List Byte) {s : State} (ready : EngineReady s) (hc : s.cmd = .calcCrc)
    (hf : s.fifo = bs) : ∃ irq : BitVec 7,
      engineSteps (List.replicate bs.length .crcByte) s = { s with
        crc := crcA s.crc bs, fifo := [], comIrq := irq, hist := s.hist ++ bs.map .crcByte } ∧
      irq &&& 0x7B = s.comIrq &&& 0x7B := by
  induction bs generalizing s with
  | nil =>
    refine ⟨s.comIrq, ?_, rfl⟩
    show s = { s with crc := s.crc, fifo := [], comIrq := s.comIrq, hist := s.hist ++ [] }
    rw [List.append_nil, ← hf]
  | cons b bs ih =>
    have first := engineStep_crcByte ready hc hf
    obtain ⟨irq, rest, kept⟩ := ih (s := engineStep .crcByte s) (by rw [first]; exact { ready with })
      (by rw [first]; exact hc) (by rw [first])
    refine ⟨irq, ?_, ?_⟩
    · rw [List.length_cons, List.replicate_succ, engineSteps, rest, first]
      simp [crcA]
    · rw [kept, first]
      show (s.comIrq ||| _) &&& _ = _
      rw [BitVec.and_or_distrib_right, alertRise_of_shrunk b hf]
      exact BitVec.or_zero

/-- Settles O41: the start, the bytes one by one, and CRC_DONE. -/
theorem calcCrcComputesTheCrcOfTheFifo : Obligations.CalcCrcComputesTheCrcOfTheFifo := by
  intro r s h lsb
  have start := (execCommand_start r h cmdClass_calcCrc).trans (congrArg _ (startCalcCrc_of_lsbFirst lsb))
  refine ⟨_, start, ?_⟩
  obtain ⟨irq, bytes, kept⟩ := engineSteps_crcByte s.fifo (s := { s with
      rcvOff := r, cmd := .calcCrc, modem := .idle, txReq := false, pendingResp := none, err := s.err &&& 0x40
      crc := crcPreset s, crcReady := false }) ⟨h.released, h.settled, h.awake⟩ rfl rfl
  refine ⟨irq, ?_, kept⟩
  rw [engineSteps_append]
  refine (congrArg (engineSteps [.crcDone]) bytes).trans ?_
  exact engineStep_crcDone ⟨h.released, h.settled, h.awake⟩ rfl rfl rfl

end Sys2Proof.Machine
end

section
/-! Driver calls that make no chip access (rules R260, R265, R330, R333, R334): the argument checks, and a
cancellation. -/

namespace Sys2Proof.Machine

open Sys2Proof

theorem runProg_ret {α : Type} (a : α) {s : State} (h : s.refused = none) : runProg (.ret a) s = ⟨some a, s, []⟩ := by
  rw [runProg, h]
  rfl

theorem transceive_bad_argument {data : List Byte} {vb : Nat} (o : TransceiveOptions)
    (h : 7 < vb ∨ 7 < o.rxAlign ∨ data = []) : transceive data vb o = .ret ⟨.internalError, [], 0⟩ := by
  unfold transceive
  by_cases bits : 7 < vb ∨ 7 < o.rxAlign
  · exact if_pos bits
  · have empty : data = [] := (or_assoc.2 h).resolve_left bits
    rw [if_neg bits, if_pos empty]

theorem transceive_noRoom {data : List Byte} {vb : Nat} {o : TransceiveOptions} (hv : vb ≤ 7) (ho : o.rxAlign ≤ 7)
    (h : 64 < data.length) : transceive data vb o = .ret ⟨.noRoom, [], 0⟩ := by
  have bits : ¬(7 < vb ∨ 7 < o.rxAlign) := by omega
  have some_data : data ≠ [] := List.ne_nil_of_length_pos (by omega)
  unfold transceive
  rw [if_neg bits, if_neg some_data]
  exact if_pos h

theorem computeCrc_noRoom {data : List Byte} (h : 64 < data.length) : computeCrc data = .ret (.error .noRoom) :=
  if_pos h

theorem verifyCrc_too_short {frame : List Byte} (h : frame.length < 2) : verifyCrc frame = .ret .invalid := if_pos h

theorem readCancel_of_cons {b : Bool} {cs : List Bool} {s : State} (h : s.cancels = b :: cs) :
    readCancel s = (b, { s with cancels := cs }) := by
  rw [readCancel, h]

/-- Settles O59, check by check. -/
theorem badArgumentsAndCancellationMakeNoChipAccess : Obligations.BadArgumentsAndCancellationMakeNoChipAccess := by
  refine ⟨fun data vb o s h => ⟨fun bad => ?_, fun hv ho room => ?_, fun room => ?_, fun short => ?_⟩,
    fun n cs s h cancel => ?_⟩
  · rw [transceive_bad_argument o bad, runProg_ret _ h]
  · rw [transceive_noRoom hv ho room, runProg_ret _ h]
  · rw [computeCrc_noRoom room, runProg_ret _ h]
  · rw [verifyCrc_too_short short, runProg_ret _ h]
  · rw [awaitReception, runProg, readCancel_of_cons cancel]
    exact runProg_ret _ h

end Sys2Proof.Machine
end

section
/-! Runs of host programs beside ENGINE (rules R70, R104): what each operation of a program asks of the state after
ENGINE's moves, and what those moves keep. -/

namespace Sys2Proof.Machine

open Sys2Proof

/-! ### The value of a run -/

/-- The run of `p` from `s` ends with a value, and the value and the state it leaves meet `Q`. -/
def Returns {α : Type} (p : HostProg α) (s : State) (Q : α → State → Prop) : Prop :=
  ∃ a, (runProg p s).value = some a ∧ Q a (runProg p s).state

section
variable {α β : Type} {s : State}

theorem Returns.mono {p : HostProg α} {Q R : α → State → Prop} (h : Returns p s Q) (hq : ∀ a t, Q a t → R a t) :
    Returns p s R := by
  obtain ⟨a, value, q⟩ := h
  exact ⟨a, value, hq a _ q⟩

theorem returns_ret_iff (a : α) (Q : α → State → Prop) : Returns (.ret a) s Q ↔ s.refused = none ∧ Q a s := by
  cases hr : s.refused <;> simp [Returns, runProg, hr]

theorem returns_rd_iff (a : RegAddr) (k : Byte → HostProg α) (Q : α → State → Prop) :
    Returns (.rd a k) s Q ↔ ∃ t, transact (decodeBus false (carrier a) 0) s = some t ∧ Returns (k t.busOut) t Q := by
  unfold Returns
  rw [runProg]
  cases transact (decodeBus false (carrier a) 0) s <;> simp [issued]

theorem returns_wr_iff (a : RegAddr) (v : Byte) (k : HostProg α) (Q : α → State → Prop) :
    Returns (.wr a v k) s Q ↔ ∃ t, transact (decodeBus true (carrier a) v) s = some t ∧ Returns k t Q := by
  unfold Returns
  rw [runProg]
  cases transact (decodeBus true (carrier a) v) s <;> simp [issued]

theorem returns_pin_iff (i : Instr) (k : Bool → HostProg α) (Q : α → State → Prop) :
    Returns (.pin i k) s Q ↔ ∃ t, transact i s = some t ∧ Returns (k t.pinOut) t Q := by
  unfold Returns
  rw [runProg]
  cases transact i s <;> simp [issued]

theorem returns_cancel_iff (k : Bool → HostProg α) (Q : α → State → Prop) :
    Returns (.cancel k) s Q ↔ Returns (k (readCancel s).1) (readCancel s).2 Q := Iff.rfl

/-- A program after another starts from the value and the state the first one leaves. -/
theorem returns_andThen {p : HostProg α} {f : α → HostProg β} {Q : β → State → Prop}
    (h : Returns p s fun a t => Returns (f a) t Q) : Returns (andThen p f) s Q := by
  induction p generalizing s with
  | ret a => exact ((returns_ret_iff a _).1 h).2
  | rd a k ih =>
    obtain ⟨t, ht, next⟩ := (returns_rd_iff a k _).1 h
    exact (returns_rd_iff a _ Q).2 ⟨t, ht, ih _ next⟩
  | wr a v k ih =>
    obtain ⟨t, ht, next⟩ := (returns_wr_iff a v k _).1 h
    exact (returns_wr_iff a v _ Q).2 ⟨t, ht, ih next⟩
  | pin i k ih =>
    obtain ⟨t, ht, next⟩ := (returns_pin_iff i k _).1 h
    exact (returns_pin_iff i _ Q).2 ⟨t, ht, ih _ next⟩
  | cancel k ih => exact ih _ h

end

/-! ### The transactions of a program as register accesses (rule R152) -/

/-- A byte written to CommandReg takes the row of its code (rules R143, R144). -/
theorem exec_decodeCommand (v : Byte) {s : State} (h : BusReady s) :
    exec (decodeCommand v) s = .next (registerWrite commandReg v s) := by
  have row (r p : Bool) {c c' : BitVec 4} (hc : c'.toNat = c.toNat) :
      busWrite (commandWrite r p c) s = commandWrite r p c' s := by
    rw [busWrite_ready _ h, BitVec.eq_of_toNat_eq hc]
  show _ = Host.Outcome.next (commandWrite (v.getLsbD 5) (v.getLsbD 4) (v.extractLsb' 0 4) s)
  unfold decodeCommand
  generalize v.getLsbD 5 = r, v.getLsbD 4 = p, v.extractLsb' 0 4 = c
  cases p with
  | true => exact congrArg _ (row r true rfl)
  | false =>
    dsimp only
    rw [if_neg Bool.false_ne_true]
    split
    case h_16 =>
      have last : c.toNat = (0xF : BitVec 4).toNat := by
        simp only [imp_false] at *
        show c.toNat = 15
        omega
      exact congrArg _ (row r false last)
    all_goals
      rename_i hc
      exact congrArg _ (row r false hc)

/-- A write at an address is the row it decodes to. -/
theorem exec_decodeWrite (a : RegAddr) (v : Byte) {s : State} (h : BusReady s) :
    exec (decodeWrite a v) s = .next (registerWrite a v s) := by
  have row {i : Instr} {f : State → State} (hi : exec i s = .next (busWrite f s)) (hf : registerWrite a v s = f s) :
      exec i s = .next (registerWrite a v s) := by
    rw [hi, busWrite_ready f h, hf]
  unfold decodeWrite
  split
  next ha => rw [ha]; exact exec_decodeCommand v h
  split
  next ha =>
    subst ha
    split
    next set => exact row rfl (congrArg (comIrqWrite · _ s) set)
    next clear => exact row rfl (congrArg (comIrqWrite · _ s) (Bool.eq_false_iff.2 clear))
  split
  next ha =>
    subst ha
    split
    next set => exact row rfl (congrArg (divIrqWrite · _ s) set)
    next clear => exact row rfl (congrArg (divIrqWrite · _ s) (Bool.eq_false_iff.2 clear))
  split
  next ha => subst ha; exact row rfl rfl
  split
  next hs => obtain ⟨rfl, flush⟩ := hs; exact row rfl (if_pos flush)
  split
  next hs => obtain ⟨rfl, stop⟩ := hs; exact (exec_tStopNow _ h).trans (congrArg _ (if_pos stop).symm)
  next no_stop =>
  split
  next hs =>
    obtain ⟨rfl, start⟩ := hs
    have hc : controlWrite v s = timerStart s := (if_neg fun stop => no_stop ⟨rfl, stop⟩).trans (if_pos start)
    exact (exec_tStartNow _ h).trans (congrArg _ hc.symm)
  split
  next hs => obtain ⟨rfl, start⟩ := hs; exact row rfl (congrArg (bitFramingWrite · _ _ s) start)
  next => exact row rfl rfl

theorem exec_decodeRead (a : RegAddr) {s : State} (h : BusReady s) :
    exec (decodeRead a) s = .next (registerRead a s) := by
  unfold decodeRead
  split
  next ha => rw [ha, exec_fifoPop h, registerRead_fifoData]
  next => exact congrArg Host.Outcome.next (busRead_ready a _ h)

/-! ### One operation, with ENGINE's moves before it -/

theorem transact_of_next {i : Instr} {s t : State} (unmarked : (enginePhase s).refused = none)
    (h : exec i (enginePhase s) = .next t) : transact i s = some t := by
  simp only [transact, unmarked, h]

section
variable {α : Type} {s : State} {Q : α → State → Prop}

theorem returns_wr {a : RegAddr} {v : Byte} {k : HostProg α} (ready : BusReady (enginePhase s))
    (unmarked : (enginePhase s).refused = none) (next : Returns k (registerWrite a v (enginePhase s)) Q) :
    Returns (.wr a v k) s Q := by
  refine (returns_wr_iff a v k Q).2 ⟨_, transact_of_next unmarked ?_, next⟩
  rw [decodeBus_carrier]
  exact exec_decodeWrite a v ready

/-- A read whose answer is known at the bits of `mask`. -/
theorem returns_rd {a : RegAddr} {mask v : Byte} {k : Byte → HostProg α} (unmarked : (enginePhase s).refused = none)
    (ha : a ≠ fifoDataReg) (shows : ReadsAs a mask v (enginePhase s))
    (next : ∀ b, b &&& mask = v → Returns (k b) (answer b (enginePhase s)) Q) :
    Returns (.rd a k) s Q := by
  obtain ⟨b, he, hb⟩ := shows
  refine (returns_rd_iff a k Q).2 ⟨answer b (enginePhase s), transact_of_next unmarked ?_, next b hb⟩
  rw [decodeBus_carrier]
  exact (congrArg (exec · _) (if_neg ha)).trans he

end

/-! ### The schedule -/

theorem engineMovesOf_eq (es : List EngineStep) (rest : List Move) :
    engineMovesOf (es.map .engine ++ .host :: rest) = (es, some rest) := by
  induction es with
  | nil => rfl
  | cons e es ih => simp only [List.map_cons, List.cons_append, engineMovesOf, ih]

/-- ENGINE makes the moves up to HOST's next one. -/
theorem enginePhase_eq {s : State} {es : List EngineStep} {rest : List Move}
    (h : s.sched = es.map .engine ++ .host :: rest) : enginePhase s = engineSteps es { s with sched := rest } := by
  rw [enginePhase, h, engineMovesOf_eq]

/-- A list of moves holds a first move of HOST, or ENGINE's moves alone. -/
theorem moves_cases (l : List Move) :
    (∃ (es : List EngineStep) (rest : List Move), l = es.map .engine ++ .host :: rest) ∨
      ∃ es : List EngineStep, l = es.map .engine := by
  induction l with
  | nil => exact .inr ⟨[], rfl⟩
  | cons m l ih =>
    cases m with
    | host => exact .inl ⟨[], l, rfl⟩
    | engine e =>
      obtain ⟨es, rest, rfl⟩ | ⟨es, rfl⟩ := ih
      · exact .inl ⟨e :: es, rest, rfl⟩
      · exact .inr ⟨e :: es, rfl⟩

theorem count_host_engine (es : List EngineStep) : (es.map Move.engine).count .host = 0 :=
  List.count_eq_zero.2 (by simp)

theorem count_engine (e : EngineStep) (es : List EngineStep) : (es.map Move.engine).count (.engine e) = es.count e := by
  induction es with
  | nil => rfl
  | cons e' es ih =>
    have same : (Move.engine e' == .engine e) = (e' == e) := by
      rw [Bool.eq_iff_iff, beq_iff_eq, beq_iff_eq, Move.engine.injEq]
    rw [List.map_cons, List.count_cons, List.count_cons, ih, same]

theorem engineStep_sched (e : EngineStep) (s : State) : (engineStep e s).sched = s.sched := by
  obtain ⟨_, he⟩ | ⟨_, he⟩ := engineStep_cases e s <;> rw [he]
  cases e with
  | crcByte => rw [engineEffect, crcByteEffect_frame]
  | tx => rw [engineEffect, txEffect_frame]
  | rx => rw [engineEffect, rxEffect_frame]
  | timerExpire => rw [engineEffect, timerExpireEffect_frame]
  | crcDone | overheat | wakeDone | resetDone => rfl

theorem engineSteps_sched (es : List EngineStep) (s : State) : (engineSteps es s).sched = s.sched := by
  induction es generalizing s with
  | nil => rfl
  | cons e es ih => exact (ih _).trans (engineStep_sched e s)

theorem enginePhase_sched {s : State} {es : List EngineStep} {rest : List Move}
    (h : s.sched = es.map .engine ++ .host :: rest) : (enginePhase s).sched = rest := by
  rw [enginePhase_eq h, engineSteps_sched]

/-- The schedule holds `n` moves of HOST, any moves of ENGINE among them, and goes on with `tail`. -/
def HostMoves (n : Nat) (tail : List Move) (s : State) : Prop :=
  ∃ l : List Move, s.sched = l ++ tail ∧ l.count .host = n

/-- A schedule with at least `n` moves of HOST, of which nothing else is known. -/
theorem HostMoves.of_count {n : Nat} {s : State} (h : n ≤ s.sched.count .host) :
    HostMoves (s.sched.count .host - n + n) [] s :=
  ⟨s.sched, (List.append_nil _).symm, (Nat.sub_add_cancel h).symm⟩

/-- What no ENGINE move and no other schedule changes. -/
structure KeptByEngine (P : State → Prop) : Prop where
  step : ∀ {s : State} (e : EngineStep), P s → P (engineStep e s)
  sched : ∀ {s : State} (l : List Move), P s → P { s with sched := l }

section
variable {P : State → Prop} (kept : KeptByEngine P) {s : State} (h : P s)
include kept h

theorem KeptByEngine.steps (es : List EngineStep) : P (engineSteps es s) := by
  induction es generalizing s with
  | nil => exact h
  | cons e es ih => exact ih (kept.step e h)

/-- The moves before HOST's next operation keep `P` and use up one move of HOST. -/
theorem KeptByEngine.phase {n : Nat} {tail : List Move} (moves : HostMoves (n + 1) tail s) :
    P (enginePhase s) ∧ HostMoves n tail (enginePhase s) := by
  obtain ⟨l, hs, hn⟩ := moves
  obtain ⟨es, rest, rfl⟩ | ⟨es, rfl⟩ := moves_cases l
  · rw [List.append_assoc, List.cons_append] at hs
    refine ⟨?_, rest, enginePhase_sched hs, ?_⟩
    · rw [enginePhase_eq hs]
      exact kept.steps (kept.sched _ h) es
    · rw [List.count_append, count_host_engine, List.count_cons_self] at hn
      omega
  · rw [count_host_engine] at hn
    omega

end

theorem HostMoves.registerWrite {n : Nat} {tail : List Move} {s : State} (h : HostMoves n tail s) (a : RegAddr)
    (v : Byte) : HostMoves n tail (registerWrite a v s) := by
  obtain ⟨l, hs, hn⟩ := h
  exact ⟨l, by rw [registerWrite_frame]; exact hs, hn⟩

end Sys2Proof.Machine
end

section
/-! The driver's CRC operations (rules R250, R260, R262, R264, R265, R531): what stands between HOST's operations while
the FIFO is loaded, while CalcCRC runs and while the result is read, whatever ENGINE does in between. -/

namespace Sys2Proof.Machine

open Sys2Proof

/-! ### The fields a CRC call depends on -/

/-- The state with every field that the CRC calls do not read at its reset value. -/
def crcPart (s : State) : State :=
  { State.reset with
    nrst := s.nrst, pdBusy := s.pdBusy, powerDown := s.powerDown, refused := s.refused, mode := s.mode, cmd := s.cmd
    fifo := s.fifo, crc := s.crc, crcResult := s.crcResult, crcReady := s.crcReady, crcIrq := s.crcIrq }

/-- Outside the transceiver and the resets, ENGINE's steps but CRC_BYTE and CRC_DONE touch none of them. -/
theorem crcPart_engineStep {e : EngineStep} {s : State} (ready : CommandReady s) (ht : s.cmd ≠ .transceive)
    (hr : s.cmd ≠ .softReset) (hb : e ≠ .crcByte) (hd : e ≠ .crcDone) : crcPart (engineStep e s) = crcPart s := by
  obtain ⟨on, he⟩ | ⟨_, he⟩ := engineStep_cases e s <;> rw [he]
  cases e with
  | crcByte => exact absurd rfl hb
  | crcDone => exact absurd rfl hd
  | tx =>
    obtain ⟨_, hc, _⟩ := (engineEnabled_tx s).1 on
    exact absurd hc ht
  | rx => simp [engineEnabled, ht] at on
  | timerExpire => rw [engineEffect, timerExpireEffect_frame]; rfl
  | overheat => rfl
  | resetDone =>
    obtain ⟨_, _, hc, _⟩ := (engineEnabled_resetDone s).1 on
    exact absurd hc hr
  | wakeDone =>
    obtain ⟨_, _, busy, _⟩ := (engineEnabled_wakeDone s).1 on
    exact absurd (ready.settled.symm.trans busy) Bool.false_ne_true

/-- The chip takes the calls: it is on and unmarked, with the preset that `reset()` writes and least significant bit
first. -/
structure CrcUsable (s : State) : Prop extends CommandReady s where
  unmarked : s.refused = none
  preset : s.mode &&& 0x83 = 0x01

/-! ### The idle chip -/

/-- No command is active; CRCIRq, the FIFO and the CRC result are as given. -/
structure IdleWith (irq : Bool) (q : List Byte) (w : Word16) (s : State) : Prop extends CrcUsable s where
  idle : s.cmd = .idle
  crcIrq_eq : s.crcIrq = irq
  fifo_eq : s.fifo = q
  result_eq : s.crcResult = w

theorem IdleWith.congr {irq : Bool} {q : List Byte} {w : Word16} {s t : State} (h : IdleWith irq q w s)
    (e : crcPart t = crcPart s) : IdleWith irq q w t := by
  have part : IdleWith irq q w (crcPart t) := e ▸ { h with }
  exact { part with }

theorem idleWith_keptByEngine (irq : Bool) (q : List Byte) (w : Word16) : KeptByEngine (IdleWith irq q w) := by
  refine ⟨fun {s} e h => ?_, fun _ h => h.congr rfl⟩
  by_cases crc : e = .crcByte ∨ e = .crcDone
  · have off : engineEnabled e s = false := by
      obtain rfl | rfl := crc <;> simp [engineEnabled, h.idle]
    rw [engineStep_of_disabled off]
    exact h
  · obtain ⟨hb, hd⟩ := not_or.1 crc
    exact h.congr (crcPart_engineStep h.toCommandReady (by simp [h.idle]) (by simp [h.idle]) hb hd)

section
variable {irq : Bool} {q : List Byte} {w : Word16} {s : State} {n : Nat} {tail : List Move} {α : Type}
  {Q : α → State → Prop}

/-- A write in the idle chip acts on an idle chip, ENGINE's moves before it included. -/
theorem IdleWith.returns_wr {a : RegAddr} {v : Byte} {k : HostProg α} (h : IdleWith irq q w s)
    (moves : HostMoves (n + 1) tail s)
    (next : ∀ u, IdleWith irq q w u → HostMoves n tail (registerWrite a v u) → Returns k (registerWrite a v u) Q) :
    Returns (.wr a v k) s Q := by
  obtain ⟨hu, mu⟩ := (idleWith_keptByEngine irq q w).phase h moves
  exact Machine.returns_wr hu.toBusReady hu.unmarked (next _ hu (mu.registerWrite a v))

theorem IdleWith.returns_rd {a : RegAddr} {mask v : Byte} {k : Byte → HostProg α} (h : IdleWith irq q w s)
    (moves : HostMoves (n + 1) tail s) (ha : a ≠ fifoDataReg) (shows : ∀ u, IdleWith irq q w u → ReadsAs a mask v u)
    (next : ∀ u b, IdleWith irq q w u → HostMoves n tail u → b &&& mask = v → Returns (k b) u Q) :
    Returns (.rd a k) s Q := by
  obtain ⟨hu, mu⟩ := (idleWith_keptByEngine irq q w).phase h moves
  exact Machine.returns_rd hu.unmarked ha (shows _ hu) fun b hb => next _ b (hu.congr rfl) mu hb

theorem IdleWith.divIrq_cleared (h : IdleWith irq q w s) : IdleWith false q w (registerWrite divIrqReg 0x04 s) :=
  { h with crcIrq_eq := rfl }

theorem IdleWith.flushed (h : IdleWith irq q w s) : IdleWith irq [] w (registerWrite fifoLevelReg 0x80 s) :=
  { h with fifo_eq := rfl }

theorem IdleWith.pushed (h : IdleWith irq q w s) (b : Byte) (room : q.length < 64) :
    IdleWith irq (q ++ [b]) w (registerWrite fifoDataReg b s) := by
  have push : registerWrite fifoDataReg b s = hostPush b s := rfl
  rw [push, hostPush_of_room b (h.fifo_eq ▸ room), h.fifo_eq]
  exact { h with fifo_eq := rfl }

/-- The writes of FIFODataReg append the bytes that fit. -/
theorem IdleWith.returns_fifoWrites {bs : List Byte} (h : IdleWith irq q w s) (moves : HostMoves (bs.length + n) tail s)
    (room : q.length + bs.length ≤ 64) :
    Returns (fifoWrites bs) s fun _ t => IdleWith irq (q ++ bs) w t ∧ HostMoves n tail t := by
  induction bs generalizing s q with
  | nil =>
    rw [List.append_nil]
    rw [List.length_nil, Nat.zero_add] at moves
    exact (returns_ret_iff _ _).2 ⟨h.unmarked, h, moves⟩
  | cons b bs ih =>
    rw [List.length_cons] at room moves
    rw [Nat.succ_add] at moves
    refine h.returns_wr moves fun u hu mu => ?_
    have rest := ih (hu.pushed b (by omega)) mu (by simp; omega)
    rwa [List.append_assoc] at rest

end

/-- A command code starts its command (rules R144, R203). -/
theorem registerWrite_start (r : Bool) {c : BitVec 4} {k : Cmd} {s : State} (h : CommandReady s)
    (hc : cmdClass c = .start k) :
    registerWrite commandReg (cmdByte r false c) s = startCommandEngine k { s with
      rcvOff := r, cmd := .idle, modem := .idle, txReq := false, pendingResp := none, err := s.err &&& 0x40 } := by
  rw [registerWrite_cmdByte, commandWrite_awake r c h.awake, writeCommandCode, hc]
  rfl

/-- Writing Idle stops the command and leaves the rest. -/
theorem CrcUsable.stopped {s : State} (h : CrcUsable s) :
    IdleWith s.crcIrq s.fifo s.crcResult (registerWrite commandReg 0x00 s) := by
  have stop := registerWrite_start false h.toCommandReady cmdClass_idle
  rw [show (0x00 : Byte) = cmdByte false false 0x0 from rfl, stop]
  exact { h with idle := rfl, crcIrq_eq := rfl, fifo_eq := rfl, result_eq := rfl }

/-! ### CalcCRC at work -/

/-- CalcCRC is at work on `data`: the register and the bytes still in the FIFO make up its CRC, and once CRC_DONE has
been (rule R256) the result holds it. -/
structure ComputesCrc (data : List Byte) (s : State) : Prop extends CrcUsable s where
  active : s.cmd = .calcCrc
  crc_eq : crcA s.crc s.fifo = crcA 0x6363 data
  irq_eq : s.crcIrq = s.crcReady
  done : s.crcReady = true → s.fifo = [] ∧ s.crcResult = s.crc

theorem ComputesCrc.congr {data : List Byte} {s t : State} (h : ComputesCrc data s) (e : crcPart t = crcPart s) :
    ComputesCrc data t := by
  have part : ComputesCrc data (crcPart t) := e ▸ { h with }
  exact { part with }

/-- The command starts on the bytes of the FIFO from the preset 0x6363 (rules R251, R252). -/
theorem IdleWith.started {data : List Byte} {w : Word16} {s : State} (h : IdleWith false data w s) :
    ComputesCrc data (registerWrite commandReg 0x03 s) := by
  have low : ∀ m : Byte, m &&& 0x83 = 0x01 → m.getLsbD 7 = false ∧ m &&& 3 = 1 := by decide
  obtain ⟨lsb, preset⟩ := low _ h.preset
  have start := (registerWrite_start false h.toCommandReady cmdClass_calcCrc).trans (startCalcCrc_of_lsbFirst lsb)
  rw [show (0x03 : Byte) = cmdByte false false 0x3 from rfl, start]
  refine { h with active := rfl, crc_eq := ?_, irq_eq := h.crcIrq_eq, done := fun ready => Bool.noConfusion ready }
  show crcA (crcPreset s) s.fifo = _
  rw [crcPreset_of_mode (.inr (.inl ⟨preset, rfl⟩)), h.fifo_eq]

section
variable {data : List Byte} {s : State}

theorem ComputesCrc.engineReady (h : ComputesCrc data s) : EngineReady s := ⟨h.released, h.settled, h.awake⟩

/-- What an ENGINE step does while CalcCRC is at work: CRC_BYTE where a byte is left, CRC_DONE where none is and the
result is not there, and else nothing that the CRC depends on. -/
theorem ComputesCrc.engineStep_cases (h : ComputesCrc data s) (e : EngineStep) :
    (∃ b bs, e = .crcByte ∧ s.fifo = b :: bs ∧ engineStep e s = { s with
      crc := crcAStep s.crc b, fifo := bs, hist := s.hist ++ [.crcByte b],
      comIrq := s.comIrq ||| alertRise s bs s.waterLevel }) ∨
    (e = .crcDone ∧ s.fifo = [] ∧ engineStep e s = { s with crcResult := s.crc, crcReady := true, crcIrq := true }) ∨
    ((e = .crcByte → s.fifo = []) ∧ (e = .crcDone → s.fifo = [] → s.crcReady = true) ∧
      crcPart (engineStep e s) = crcPart s) := by
  by_cases hb : e = .crcByte
  · subst hb
    cases hf : s.fifo with
    | cons b bs => exact .inl ⟨b, bs, rfl, rfl, engineStep_crcByte h.engineReady h.active hf⟩
    | nil => exact .inr (.inr ⟨fun _ => rfl, nofun, congrArg crcPart (engineStep_crcByte_of_off (.inr (.inl hf)))⟩)
  by_cases hd : e = .crcDone
  · subst hd
    by_cases off : s.fifo ≠ [] ∨ s.crcReady = true
    · refine .inr (.inr ⟨nofun, fun _ hf => off.resolve_left (not_not_intro hf), congrArg crcPart ?_⟩)
      exact engineStep_crcDone_of_off (.inr (off.imp_right .inl))
    · rw [not_or, Classical.not_not] at off
      obtain ⟨hf, hr⟩ := off
      exact .inr (.inl ⟨rfl, hf, engineStep_crcDone h.engineReady h.active hf (Bool.eq_false_iff.2 hr)⟩)
  · refine .inr (.inr ⟨fun he => absurd he hb, fun he => absurd he hd, ?_⟩)
    exact crcPart_engineStep h.toCommandReady (by simp [h.active]) (by simp [h.active]) hb hd

theorem computesCrc_keptByEngine (data : List Byte) : KeptByEngine (ComputesCrc data) := by
  refine ⟨fun {s} e h => ?_, fun _ h => h.congr rfl⟩
  obtain ⟨b, bs, _, hf, he⟩ | ⟨_, hf, he⟩ | ⟨_, _, same⟩ := h.engineStep_cases e
  · rw [he]
    refine { h with crc_eq := ?_, done := fun ready => ?_ }
    · rw [← h.crc_eq, hf]
      rfl
    · exact absurd (hf.symm.trans (h.done ready).1) (List.cons_ne_nil b bs)
  · rw [he]
    exact { h with irq_eq := rfl, done := fun _ => ⟨hf, rfl⟩ }
  · exact h.congr same

/-- CRC_BYTE alone takes bytes from the FIFO. -/
theorem ComputesCrc.engineStep_fifo (h : ComputesCrc data s) (e : EngineStep) :
    (engineStep e s).fifo = s.fifo.drop ([e].count .crcByte) := by
  obtain ⟨b, bs, rfl, hf, he⟩ | ⟨rfl, hf, he⟩ | ⟨empty, _, same⟩ := h.engineStep_cases e
  · rw [he, hf]
    rfl
  · rw [he]
    rfl
  · refine (congrArg State.fifo same).trans ?_
    show s.fifo = _
    by_cases hb : e = .crcByte
    · rw [empty hb, List.drop_nil]
    · rw [List.count_eq_zero.2 (by simpa using Ne.symm hb), List.drop_zero]

theorem ComputesCrc.engineSteps_fifo (h : ComputesCrc data s) (es : List EngineStep) :
    (engineSteps es s).fifo = s.fifo.drop (es.count .crcByte) := by
  induction es generalizing s with
  | nil => rfl
  | cons e es ih =>
    have step := (computesCrc_keptByEngine data).step e h
    rw [engineSteps, ih step, h.engineStep_fifo, List.drop_drop, ← List.count_append]
    rfl

/-- The result stays once it is there. -/
theorem computesCrc_ready_keptByEngine (data : List Byte) :
    KeptByEngine fun s => ComputesCrc data s ∧ s.crcReady = true := by
  refine ⟨fun {s} e hs => ?_, fun _ hs => ⟨hs.1.congr rfl, hs.2⟩⟩
  obtain ⟨h, ready⟩ := hs
  refine ⟨(computesCrc_keptByEngine data).step e h, ?_⟩
  obtain ⟨_, _, _, _, he⟩ | ⟨_, _, he⟩ | ⟨_, _, same⟩ := h.engineStep_cases e
  · exact he ▸ ready
  · rw [he]
  · exact (congrArg State.crcReady same).trans ready

/-- CRC_DONE after a CRC_BYTE for each byte left gives the result, whatever stands between them. -/
theorem ComputesCrc.ready_of_steps (h : ComputesCrc data s) {es : List EngineStep} (es' : List EngineStep)
    (bytes : s.fifo.length ≤ es.count .crcByte) : (engineSteps (es ++ .crcDone :: es') s).crcReady = true := by
  have before := (computesCrc_keptByEngine data).steps h es
  have empty : (engineSteps es s).fifo = [] := by rw [h.engineSteps_fifo, List.drop_eq_nil_iff.2 bytes]
  have done : (engineStep .crcDone (engineSteps es s)).crcReady = true := by
    obtain ⟨_, _, _, hf, _⟩ | ⟨_, _, he⟩ | ⟨_, ready, same⟩ := before.engineStep_cases .crcDone
    · exact absurd (hf.symm.trans empty) (List.cons_ne_nil _ _)
    · rw [he]
    · exact (congrArg State.crcReady same).trans (ready rfl empty)
  rw [engineSteps_append, engineSteps]
  exact ((computesCrc_ready_keptByEngine data).steps
    ⟨(computesCrc_keptByEngine data).step .crcDone before, done⟩ es').2

/-- The moves before HOST's next read of the wait: the result is there after them, or as many CRC_BYTE moves as bytes
are left stand before CRC_DONE still, and one move of HOST fewer. -/
theorem ComputesCrc.phase (h : ComputesCrc data s) {wait more : List Move} {n : Nat}
    (hs : s.sched = wait ++ .engine .crcDone :: more) (bytes : s.fifo.length ≤ wait.count (.engine .crcByte))
    (later : n < more.count .host) :
    ComputesCrc data (enginePhase s) ∧ n ≤ (enginePhase s).sched.count .host ∧
      ((enginePhase s).crcReady = true ∨ ∃ wait' : List Move, wait.count .host = wait'.count .host + 1 ∧
        (enginePhase s).sched = wait' ++ .engine .crcDone :: more ∧
        (enginePhase s).fifo.length ≤ wait'.count (.engine .crcByte)) := by
  obtain ⟨es, wait', rfl⟩ | ⟨es, rfl⟩ := moves_cases wait
  · rw [List.append_assoc, List.cons_append] at hs
    have h' : ComputesCrc data { s with sched := wait' ++ .engine .crcDone :: more } := h.congr rfl
    have sched := enginePhase_sched hs
    have fifo : (enginePhase s).fifo = s.fifo.drop (es.count .crcByte) := by
      rw [enginePhase_eq hs, h'.engineSteps_fifo]
    rw [List.count_append, count_engine, List.count_cons_of_ne (by simp)] at bytes
    refine ⟨?_, ?_, .inr ⟨wait', ?_, sched, ?_⟩⟩
    · rw [enginePhase_eq hs]
      exact (computesCrc_keptByEngine data).steps h' es
    · rw [sched, List.count_append, List.count_cons_of_ne (by simp)]
      omega
    · rw [List.count_append, count_host_engine, List.count_cons_self, Nat.zero_add]
    · rw [fifo, List.length_drop]
      omega
  · rw [count_engine] at bytes
    obtain ⟨es', rest, rfl⟩ | ⟨es', rfl⟩ := moves_cases more
    · have all : s.sched = (es ++ .crcDone :: es').map .engine ++ .host :: rest := by simp [hs]
      have h' : ComputesCrc data { s with sched := rest } := h.congr rfl
      rw [List.count_append, count_host_engine, List.count_cons_self] at later
      rw [enginePhase_sched all, enginePhase_eq all]
      refine ⟨(computesCrc_keptByEngine data).steps h' _, by omega, .inl ?_⟩
      exact h'.ready_of_steps es' bytes
    · rw [count_host_engine] at later
      omega

/-- DivIrqReg shows CRCIRq in bit 2 (rule R41). -/
theorem readsAs_crcIrq {u : State} (h : BusReady u) : ReadsAs divIrqReg 0x04 (if u.crcIrq then 0x04 else 0) u := by
  refine readsAs_of_shown h (by decide) (by decide) fun _ => ?_
  show (0#3 ++ BitVec.ofBool u.mfinActIrq ++ 0#1 ++ BitVec.ofBool u.crcIrq ++ 0#2) &&& 0x04 = _
  cases u.mfinActIrq <;> cases u.crcIrq <;> rfl

/-- The wait sees CRCIRq within its budget (rules R12, R260), and the result is there. -/
theorem ComputesCrc.returns_poll {budget : Nat} (h : ComputesCrc data s) {wait more : List Move} {n : Nat}
    (hs : s.sched = wait ++ .engine .crcDone :: more) (bytes : s.fifo.length ≤ wait.count (.engine .crcByte))
    (intime : wait.count .host < budget) (later : n < more.count .host) :
    Returns (poll divIrqReg 0x04 budget) s fun r t =>
      r ≠ none ∧ ComputesCrc data t ∧ t.crcReady = true ∧ n ≤ t.sched.count .host := by
  induction budget generalizing s wait with
  | zero => omega
  | succ budget ih =>
    obtain ⟨hu, left, next⟩ := h.phase hs bytes later
    refine returns_rd hu.unmarked (by decide) (readsAs_crcIrq hu.toBusReady) fun b hb => ?_
    have seen : b &&& 0x04 ≠ 0 ↔ (enginePhase s).crcReady = true := by
      rw [hb, hu.irq_eq]
      cases (enginePhase s).crcReady <;> decide
    have ht : ComputesCrc data (answer b (enginePhase s)) := hu.congr rfl
    by_cases ready : (enginePhase s).crcReady = true
    · rw [if_pos (seen.2 ready)]
      exact (returns_ret_iff _ _).2 ⟨ht.unmarked, nofun, ht, ready, left⟩
    · rw [if_neg (mt seen.1 ready)]
      obtain ⟨wait', fewer, hs', bytes'⟩ := next.resolve_left ready
      exact ih ht hs' bytes' (by omega)

/-- Writing Idle after CRC_DONE leaves the idle chip with the CRC as the result (rules R109, R258). -/
theorem ComputesCrc.stopped (h : ComputesCrc data s) (ready : s.crcReady = true) :
    IdleWith true [] (crcA 0x6363 data) (registerWrite commandReg 0x00 s) := by
  obtain ⟨empty, result⟩ := h.done ready
  have crc := h.crc_eq
  rw [empty] at crc
  have idle := h.toCrcUsable.stopped
  rwa [h.irq_eq, ready, empty, result, show s.crc = _ from crc] at idle

end

/-! ### The calls -/

theorem IdleWith.readsAs_result {irq : Bool} {q : List Byte} {w : Word16} {s : State} (h : IdleWith irq q w s) :
    ReadsAs crcResultRegH 0xFF (highByte w) s ∧ ReadsAs crcResultRegL 0xFF (lowByte w) s := by
  have reads := readsAs_crcResult h.toBusReady (by simp [h.idle])
  rwa [h.result_eq, ← highByte_eq, ← lowByte_eq] at reads

section
variable {data : List Byte} {s : State}

/-- The end of the call: CalcCRC is stopped and its result read (rule R260). -/
theorem ComputesCrc.returns_result {n : Nat} (h : ComputesCrc data s) (ready : s.crcReady = true)
    (moves : HostMoves (n + 3) [] s) :
    Returns (.wr commandReg 0x00 <| .rd crcResultRegL fun lo => .rd crcResultRegH fun hi =>
      .ret (.ok (hi ++ lo) : Except Status Word16)) s fun r t =>
        r = .ok (crcA 0x6363 data) ∧ t.cmd = .idle ∧ t.fifo = [] ∧ t.refused = none := by
  obtain ⟨⟨hu, ready⟩, mu⟩ := (computesCrc_ready_keptByEngine data).phase ⟨h, ready⟩ moves
  refine returns_wr hu.toBusReady hu.unmarked ?_
  refine (hu.stopped ready).returns_rd (mu.registerWrite _ _) (by decide) (fun _ h => h.readsAs_result.2)
    fun u lo hu mu hlo => ?_
  refine hu.returns_rd mu (by decide) (fun _ h => h.readsAs_result.1) fun u hi hu _ hhi => ?_
  rw [and_ff] at hlo hhi
  refine (returns_ret_iff _ _).2 ⟨hu.unmarked, ?_, hu.idle, hu.fifo_eq, hu.unmarked⟩
  rw [hlo, hhi, highByte_append_lowByte]

/-- The start of CalcCRC on a loaded FIFO and the wait for CRCIRq, under PROMPT_CRC (rules R260, R531). -/
theorem IdleWith.returns_run {α : Type} {k : Option Byte → HostProg α} {Q : α → State → Prop} {w : Word16}
    (h : IdleWith false data w s) {wait more : List Move} {n : Nat}
    (moves : HostMoves 1 (wait ++ .engine .crcDone :: more) s)
    (bytes : data.length ≤ wait.count (.engine .crcByte)) (intime : wait.count .host < Config.crcPollBudget)
    (later : n < more.count .host)
    (next : ∀ b t, ComputesCrc data t → t.crcReady = true → n ≤ t.sched.count .host → Returns (k (some b)) t Q) :
    Returns (.wr commandReg 0x03 <| andThen (poll divIrqReg 0x04 Config.crcPollBudget) k) s Q := by
  refine h.returns_wr moves fun u hu mu => ?_
  obtain ⟨l, hl, hn⟩ := mu
  have fifo : (registerWrite commandReg 0x03 u).fifo = data := by
    show (commandWrite _ _ _ u).fifo = data
    rw [commandWrite_frame]
    exact hu.fifo_eq
  have wait_count (m : Move) : (l ++ wait).count m = l.count m + wait.count m := List.count_append
  have polled := hu.started.returns_poll (budget := Config.crcPollBudget) (wait := l ++ wait)
    (by rw [hl, List.append_assoc]) (by rw [fifo, wait_count]; omega) (by rw [wait_count]; omega) later
  refine returns_andThen (polled.mono fun r t ht => ?_)
  obtain ⟨seen, ht, ready, left⟩ := ht
  obtain ⟨b, rfl⟩ := Option.ne_none_iff_exists'.1 seen
  exact next b t ht ready left

variable {rest : List Move} (ready : CommandReady s) (unmarked : s.refused = none) (room : data.length ≤ 64)
  (preset : s.mode &&& 0x83 = 0x01) (prompt : PromptCrc data.length s.sched rest)
include ready unmarked room preset prompt

/-- `computeCrc` under PROMPT_CRC (rules R260, R531). -/
theorem returns_computeCrc : Returns (computeCrc data) s fun r t =>
    r = .ok (crcA 0x6363 data) ∧ t.cmd = .idle ∧ t.fifo = [] ∧ t.refused = none := by
  obtain ⟨writes, wait, reads, hs, hw, bytes, intime, hr⟩ := prompt
  have sched : s.sched = ([] : List EngineStep).map .engine ++
      .host :: (writes ++ [.host] ++ (wait ++ .engine .crcDone :: (reads ++ rest))) := by simp [hs]
  have later : 3 < (reads ++ rest).count .host := by
    rw [List.count_append, hr]
    omega
  have usable : CrcUsable (enginePhase s) := by
    rw [enginePhase_eq sched]
    exact { ready with unmarked := unmarked, preset := preset }
  have moves : HostMoves (data.length + 1 + 1 + 1) (wait ++ .engine .crcDone :: (reads ++ rest)) (enginePhase s) :=
    ⟨_, enginePhase_sched sched, by rw [List.count_append, hw]; rfl⟩
  unfold computeCrc
  rw [if_neg (show ¬Config.fifoDepth < data.length from Nat.not_lt.2 room)]
  refine returns_wr usable.toBusReady usable.unmarked ?_
  refine usable.stopped.returns_wr (moves.registerWrite _ _) fun u hu mu => ?_
  refine hu.divIrq_cleared.returns_wr mu fun u hu mu => ?_
  refine returns_andThen ((hu.flushed.returns_fifoWrites mu (by simpa using room)).mono fun _ u hu => ?_)
  obtain ⟨hu, mu⟩ := hu
  exact hu.returns_run mu bytes intime later fun _ t ht done left => ht.returns_result done (.of_count left)

/-- `appendCrc` under PROMPT_CRC (rules R262, R264). -/
theorem returns_appendCrc : Returns (appendCrc data) s fun r _ =>
    r = .ok (data ++ [lowByte (crcA 0x6363 data), highByte (crcA 0x6363 data)]) := by
  refine returns_andThen ((returns_computeCrc ready unmarked room preset prompt).mono fun r t ht => ?_)
  obtain ⟨rfl, _, _, unmarked⟩ := ht
  exact (returns_ret_iff _ _).2 ⟨unmarked, rfl⟩

/-- `verifyCrc` under PROMPT_CRC, of a frame whose last two bytes are `lo` and `hi` (rule R265). -/
theorem returns_verifyCrc (lo hi : Byte) : Returns (verifyCrc (data ++ [lo, hi])) s fun r _ =>
    r = if lo = lowByte (crcA 0x6363 data) ∧ hi = highByte (crcA 0x6363 data) then .ok else .crcWrong := by
  have length : (data ++ [lo, hi]).length - 2 = data.length := by simp
  unfold verifyCrc
  rw [if_neg (by simp), length, List.take_left, List.drop_left]
  refine returns_andThen ((returns_computeCrc ready unmarked room preset prompt).mono fun r t ht => ?_)
  obtain ⟨rfl, _, _, unmarked⟩ := ht
  refine (returns_ret_iff _ _).2 ⟨unmarked, ?_⟩
  simp only [List.cons.injEq, and_true]

end

/-- Settles O56, from the run of `computeCrc`: while the FIFO is loaded the chip stays idle, while CalcCRC is at work
the register and the FIFO keep the CRC, and CRC_DONE comes within the budget. -/
theorem computeCrcReturnsCrcA : Obligations.ComputeCrcReturnsCrcA := by
  intro data rest s ready unmarked room preset prompt
  obtain ⟨_, value, rfl, idle, empty, safe⟩ := returns_computeCrc ready unmarked room preset prompt
  obtain ⟨_, appended, rfl⟩ := returns_appendCrc ready unmarked room preset prompt
  refine ⟨value, idle, empty, safe, appended, fun lo hi => ?_⟩
  obtain ⟨_, verified, rfl⟩ := returns_verifyCrc ready unmarked room preset prompt lo hi
  exact verified

end Sys2Proof.Machine
end

section
/-! Frame assembly (rules R25, R102, R302, R303, R307): how long the frame is, and the bit that stands at each place. -/

namespace Sys2Proof.Machine

open Sys2Proof

theorem bitsLSB_length (b : Byte) (n : Nat) : (bitsLSB b n).length = n := by simp [bitsLSB]

theorem bitsLSB_getElem? (b : Byte) {n k : Nat} (h : k < n) : (bitsLSB b n)[k]? = some (b.getLsbD k) := by
  simp [bitsLSB, h]

theorem lastByteBits_le (l : BitVec 3) : lastByteBits l ≤ 8 := by
  unfold lastByteBits
  split <;> omega

/-- A byte before the last one is sent whole. -/
theorem assemble_cons (b : Byte) {bs : List Byte} (h : bs ≠ []) (l : BitVec 3) :
    assemble (b :: bs) l = bitsLSB b 8 ++ assemble bs l := by
  cases bs with
  | nil => exact absurd rfl h
  | cons c bs => rfl

theorem assemble_length {bs : List Byte} (h : bs ≠ []) (l : BitVec 3) :
    (assemble bs l).length = 8 * (bs.length - 1) + lastByteBits l := by
  induction bs with
  | nil => exact absurd rfl h
  | cons b bs ih =>
    by_cases last : bs = []
    · subst last
      simp [assemble, bitsLSB_length]
    · have := List.length_pos_iff.2 last
      rw [assemble_cons b last, List.length_append, bitsLSB_length, ih last, List.length_cons]
      omega

/-- Bit `k` of the frame is bit `k % 8` of byte `k / 8`. -/
theorem assemble_getElem? {bs : List Byte} (l : BitVec 3) {k : Nat} (h : k < (assemble bs l).length) :
    (assemble bs l)[k]? = (bs[k / 8]?).map fun b => b.getLsbD (k % 8) := by
  induction bs generalizing k with
  | nil => exact absurd h (Nat.not_lt_zero k)
  | cons b bs ih =>
    by_cases last : bs = []
    · subst last
      have sent : k < lastByteBits l := by simpa [assemble, bitsLSB_length] using h
      have first : k < 8 := Nat.lt_of_lt_of_le sent (lastByteBits_le l)
      simp [assemble, bitsLSB_getElem? b sent, Nat.div_eq_of_lt first, Nat.mod_eq_of_lt first]
    · rw [assemble_cons b last] at h ⊢
      by_cases first : k < 8
      · rw [List.getElem?_append_left (by rwa [bitsLSB_length]), bitsLSB_getElem? b first, Nat.div_eq_of_lt first,
          Nat.mod_eq_of_lt first]
        rfl
      · obtain ⟨j, rfl⟩ := Nat.exists_eq_add_of_le (Nat.not_lt.1 first)
        rw [List.length_append, bitsLSB_length] at h
        rw [List.getElem?_append_right (by simp [bitsLSB_length]), bitsLSB_length, Nat.add_sub_cancel_left,
          ih (by omega), Nat.add_div_left j (by decide), Nat.add_mod_left]
        rfl

/-- Settles O44: the length of the frame and each of its bits. -/
theorem frameAssemblySendsTheFifoBits : Obligations.FrameAssemblySendsTheFifoBits := by
  intro bs l h n
  have length : (assemble bs l).length = n := assemble_length h l
  exact ⟨length, fun k hk => assemble_getElem? l (length ▸ hk)⟩

end Sys2Proof.Machine
end

section
/-! The refusals of the transmit step, and the states without a transmit or a receive step (rules R309, R310, R314, R316,
R318, R403). -/

namespace Sys2Proof.Machine

open Sys2Proof

theorem engineEnabled_rx (s : State) :
    engineEnabled .rx s = true ↔
      EngineReady s ∧ s.cmd = .transceive ∧ s.modem = .waitData ∧ s.pendingResp ≠ none ∧ s.rcvOff = false := by
  simp only [engineEnabled, Bool.and_eq_true, Bool.not_eq_true', beq_iff_eq, engineRuns_iff, and_assoc,
    Option.isSome_iff_ne_none]

theorem txEffect_of_not_admitted {s : State} (h : ¬radioAdmitted s = true) :
    txEffect s = refuse .radioConfigurationOutsideTheModel s :=
  if_pos (Bool.eq_false_iff.2 h)

theorem txEffect_of_empty {s : State} (ha : radioAdmitted s = true) (hf : s.fifo = []) :
    txEffect s = refuse .transmitWithEmptyFifo s := by
  unfold txEffect
  rw [if_neg (by simp [ha]), if_pos hf]

/-- Settles O46: the refusals by the two conditions of the effect, the silence by those of the steps. -/
theorem transmitRefusalsAndSilence : Obligations.TransmitRefusalsAndSilence := by
  refine ⟨fun s ready hc hm hq => ⟨fun bad => ?radio, fun htx hrx ht empty => ?empty⟩, fun s off => ?noTx,
    fun s off => ?noRx⟩
  case radio =>
    rw [engineStep_tx ready hc hm hq]
    refine txEffect_of_not_admitted fun admitted => ?_
    obtain ⟨htx, hrx, ht⟩ := (radioAdmitted_iff s).1 admitted
    exact bad.elim (· htx) fun bad => bad.elim (· hrx) fun ⟨auto, gated⟩ => gated (ht auto)
  case empty =>
    rw [engineStep_tx ready hc hm hq]
    exact txEffect_of_empty ((radioAdmitted_iff s).2 ⟨htx, hrx, ht⟩) empty
  case noTx =>
    refine engineStep_of_disabled (Bool.eq_false_iff.2 fun on => ?_)
    obtain ⟨ready, hc, hm, hq⟩ := (engineEnabled_tx s).1 on
    simp [ready, hc, hm, hq] at off
  case noRx =>
    refine engineStep_of_disabled (Bool.eq_false_iff.2 fun on => ?_)
    obtain ⟨ready, hc, hm, hp, ho⟩ := (engineEnabled_rx s).1 on
    simp [ready, hc, hm, hp, ho] at off

end Sys2Proof.Machine
end

section
/-! The receive step (rules R314, R315, R321, R408, R410, R430), operation by operation as full equations. -/

namespace Sys2Proof.Machine

open Sys2Proof

/-- A reply stores at least one byte. -/
theorem receivedBytes_ne_nil (s : State) (r : Reply) : receivedBytes s r ≠ [] := by
  refine List.ne_nil_of_length_pos ?_
  rw [receivedBytes_length, List.length_cons]
  omega

/-- The bytes that fit are stored, and BufferOvfl marks a reply that is too long (rules R110, R314, R321). -/
theorem storeReply_eq (r : Reply) (s : State) :
    storeReply r s = { s with
      fifo := s.fifo ++ (receivedBytes s r).take (64 - s.fifo.length)
      err := s.err ||| (if 64 < s.fifo.length + (receivedBytes s r).length then 0x10 else 0)
      comIrq := s.comIrq ||| (if 64 < s.fifo.length + (receivedBytes s r).length then 0x02 else 0)
      rxLastBits := BitVec.ofNat 3 (s.rxAlign.toNat + r.syms.length)
      draws := s.draws + 8 * (receivedBytes s r).length } := by
  unfold storeReply
  rw [fifoPushAll_eq]
  simp only [receivedBytes_ne_nil, ne_eq, not_false_eq_true, true_and]
  by_cases full : 64 < s.fifo.length + (receivedBytes s r).length
  · simp only [bumpDraws, Config.fifoDepth, full, if_true]
  · simp [bumpDraws, Config.fifoDepth, full]

/-- The collision detect (rule R315): the position of the first collision, where CollReg has a number for it. -/
theorem collision_eq (ys : List Sym) (s : State) :
    collision (firstCollision ys) s = { s with
      err := s.err ||| (if ys.contains .x then 0x08 else 0)
      comIrq := s.comIrq ||| (if ys.contains .x then 0x02 else 0)
      collPosNotValid := !(ys.contains .x && decide (s.rxAlign.toNat + ys.idxOf .x + 1 ≤ 32))
      collPos := if ys.contains .x = false then s.collPos
        else if s.rxAlign.toNat + ys.idxOf .x + 1 ≤ 32 then BitVec.ofNat 5 ((s.rxAlign.toNat + ys.idxOf .x + 1) % 32)
        else Config.freeBits 5 s.draws
      draws := (collision (firstCollision ys) s).draws } := by
  rw [firstCollision_eq]
  cases hit : ys.contains .x with
  | false => simp [collision]
  | true =>
    by_cases low : s.rxAlign.toNat + ys.idxOf .x + 1 ≤ 32
    · simp [collision, collisionPosition, Config.collPosOrigin, setErr, ← Nat.add_assoc, low]
    · simp [collision, collisionPosition, Config.collPosOrigin, setErr, ← Nat.add_assoc, low]

/-- The error marks of a reception (rules R314, R315, R408), each with ErrIRq (rule R410). -/
theorem flagReply_eq (r : Reply) (s : State) :
    flagReply r s = { collision (firstCollision r.syms) s with
      err := s.err ||| (if r.syms.contains .x then 0x08 else 0) ||| (if r.parityErr then 0x02 else 0) |||
        (if r.protocolErr then 0x01 else 0)
      comIrq := s.comIrq ||| (if r.syms.contains .x || r.parityErr || r.protocolErr then 0x02 else 0) } := by
  unfold flagReply
  dsimp only
  rw [ite_setErr, ite_setErr, collision_eq]
  cases r.syms.contains .x <;> cases r.parityErr <;> cases r.protocolErr <;> simp [BitVec.or_assoc]

/-- The timer stops on a reply of at least 4 bits (rule R430). -/
theorem stopTimerOnReply_eq (r : Reply) (s : State) :
    stopTimerOnReply r s = { s with
      tRunning := s.tRunning && !(decide (4 ≤ r.syms.length) && s.tRunning && s.tMode.getLsbD 7)
      tCounter := if (decide (4 ≤ r.syms.length) && s.tRunning && s.tMode.getLsbD 7) = true
        then Config.freeBits 16 s.draws else s.tCounter
      draws := (stopTimerOnReply r s).draws } := by
  unfold stopTimerOnReply tAuto
  have stops : (4 ≤ r.syms.length ∧ s.tRunning = true ∧ s.tMode.getLsbD 7 = true) =
      ((decide (4 ≤ r.syms.length) && s.tRunning && s.tMode.getLsbD 7) = true) := by
    simp only [Bool.and_eq_true, decide_eq_true_eq, and_assoc]
  simp only [stops]
  generalize (decide (4 ≤ r.syms.length) && s.tRunning && s.tMode.getLsbD 7) = b
  cases b <;> simp [timerStop]

/-- The RX step field by field, for the free values that the operations draw. -/
theorem rxEffect_eq {s : State} {r : Reply} (h : s.pendingResp = some r) :
    ∃ (free16 : Word16) (free5 : BitVec 5) (draws' : Nat),
      rxEffect s = { s with
        pendingResp := none, modem := .waitStart, hist := s.hist ++ [.rx r]
        fifo := s.fifo ++ (receivedBytes s r).take (64 - s.fifo.length)
        rxLastBits := BitVec.ofNat 3 (s.rxAlign.toNat + r.syms.length)
        err := s.err ||| (if 64 < s.fifo.length + (receivedBytes s r).length then 0x10 else 0) |||
          (if r.syms.contains .x then 0x08 else 0) ||| (if r.parityErr then 0x02 else 0) |||
          (if r.protocolErr then 0x01 else 0)
        comIrq := s.comIrq ||| (if 64 < s.fifo.length + (receivedBytes s r).length then 0x02 else 0) |||
          (if r.syms.contains .x || r.parityErr || r.protocolErr then 0x02 else 0) ||| 0x20 |||
          alertRise s (s.fifo ++ (receivedBytes s r).take (64 - s.fifo.length)) s.waterLevel
        collPosNotValid := !(r.syms.contains .x && decide (s.rxAlign.toNat + r.syms.idxOf .x + 1 ≤ 32))
        collPos := if r.syms.contains .x = false then s.collPos
          else if s.rxAlign.toNat + r.syms.idxOf .x + 1 ≤ 32 then
            BitVec.ofNat 5 ((s.rxAlign.toNat + r.syms.idxOf .x + 1) % 32)
          else free5
        tRunning := s.tRunning && !(decide (4 ≤ r.syms.length) && s.tRunning && s.tMode.getLsbD 7)
        tCounter := if (decide (4 ≤ r.syms.length) && s.tRunning && s.tMode.getLsbD 7) = true then free16
          else s.tCounter
        draws := draws' } := by
  simp only [rxEffect, h]
  have stored := storeReply_eq r { s with pendingResp := none }
  have same : receivedBytes { s with pendingResp := none } r = receivedBytes s r := rfl
  generalize storeReply r { s with pendingResp := none } = s₁ at stored ⊢
  have flagged := flagReply_eq r s₁
  rw [collision_eq] at flagged
  generalize flagReply r s₁ = s₂ at flagged ⊢
  have stopped := stopTimerOnReply_eq r s₂
  refine ⟨Config.freeBits 16 s₂.draws, Config.freeBits 5 s₁.draws, (stopTimerOnReply r s₂).draws, ?_⟩
  generalize stopTimerOnReply r s₂ = s₃ at stopped ⊢
  generalize s₃.draws = d₃, Config.freeBits 16 s₂.draws = f₂ at *
  generalize Config.freeBits 5 s₁.draws = f₁, (collision (firstCollision r.syms) s₁).draws = d₁ at *
  rw [withAlerts_eq, risenAlerts_eq]
  subst stopped flagged stored
  rfl

/-- Settles O47: the reply stored, its flags and the collision, the timer, and the alerts. -/
theorem receiveStep : Obligations.ReceiveStep := by
  intro s r ready hc hm hr ho
  dsimp only
  obtain ⟨free16, free5, draws', he⟩ := rxEffect_eq hr
  have last (m : Nat) : BitVec.ofNat 3 (m % 8) = BitVec.ofNat 3 m := BitVec.eq_of_toNat_eq (by simp)
  have irq (full : Prop) [Decidable full] (c i : BitVec 7) (b : Bool) :
      c ||| (if full then 0x02 else 0) ||| (if b then 0x02 else 0) ||| 0x20 ||| i =
        c ||| 0x20 ||| (if decide full || b then 0x02 else 0) ||| i := by
    by_cases h : full <;> cases b <;> simp [h, BitVec.or_assoc]
  refine ⟨free16, free5, draws', ?_⟩
  rw [engineStep_rx ready hc hm hr ho, he]
  simp only [last, irq, Bool.or_assoc, decide_eq_true_eq]

end Sys2Proof.Machine
end

section
/-! Runs of host programs under a premise on the schedule (rules R104, R531): the moves that stand before a driver call's
end, which ENGINE steps may be among them, and the step that a wait is for. -/

namespace Sys2Proof.Machine

open Sys2Proof

/-! ### The moves of a call -/

/-- `n` moves of HOST, with ENGINE moves among them that `S` admits alone. -/
def Moves (S : EngineStep → Prop) (n : Nat) (m : List Move) : Prop :=
  m.count .host = n ∧ ∀ e, .engine e ∈ m → S e

section
variable {S : EngineStep → Prop} {n : Nat} {m : List Move}

theorem Moves.of_engine {e : EngineStep} (h : Moves S n (.engine e :: m)) : S e ∧ Moves S n m := by
  obtain ⟨count, only⟩ := h
  rw [List.count_cons_of_ne (by simp)] at count
  exact ⟨only e List.mem_cons_self, count, fun e he => only e (List.mem_cons_of_mem _ he)⟩

theorem Moves.of_host (h : Moves S n (.host :: m)) : ∃ k, n = k + 1 ∧ Moves S k m := by
  obtain ⟨count, only⟩ := h
  rw [List.count_cons_self] at count
  exact ⟨_, count.symm, rfl, fun e he => only e (List.mem_cons_of_mem _ he)⟩

theorem Moves.host_mem (h : Moves S (n + 1) m) : .host ∈ m := List.count_pos_iff.1 (by rw [h.1]; omega)

end

/-- The schedule goes on with moves that meet `I`, together with the state, and then with `rest`; the next reads of CANCEL
give `cs`. -/
def Ahead (I : List Move → State → Prop) (rest : List Move) (cs : List Bool) (s : State) : Prop :=
  ∃ m : List Move, s.sched = m ++ rest ∧ s.cancels = cs ∧ I m s

/-- What holds of the moves to come and the state whichever ENGINE move is made, with a move of HOST to come. -/
structure Script (I : List Move → State → Prop) : Prop where
  step : ∀ {e : EngineStep} {m : List Move} {s : State}, I (.engine e :: m) s → I m (engineStep e s)
  sched : ∀ {m : List Move} {s : State} (l : List Move), I m s → I m { s with sched := l }
  cancels : ∀ {m : List Move} {s : State} (cs : List Bool), I m s → I m { s with cancels := cs }
  host : ∀ {m : List Move} {s : State}, I m s → .host ∈ m

theorem Script.steps {I : List Move → State → Prop} (script : Script I) (es : List EngineStep) {m : List Move}
    {s : State} (h : I (es.map .engine ++ m) s) : I m (engineSteps es s) := by
  induction es generalizing s with
  | nil => exact h
  | cons e es ih => exact ih (script.step h)

/-- Only HOST's reads of CANCEL use up its values (rule R70). -/
theorem engineStep_cancels (e : EngineStep) (s : State) : (engineStep e s).cancels = s.cancels := by
  obtain ⟨_, he⟩ | ⟨_, he⟩ := engineStep_cases e s <;> rw [he]
  cases e with
  | crcByte => rw [engineEffect, crcByteEffect_frame]
  | tx => rw [engineEffect, txEffect_frame]
  | rx => rw [engineEffect, rxEffect_frame]
  | timerExpire => rw [engineEffect, timerExpireEffect_frame]
  | crcDone | overheat | wakeDone | resetDone => rfl

theorem engineSteps_cancels (es : List EngineStep) (s : State) : (engineSteps es s).cancels = s.cancels := by
  induction es generalizing s with
  | nil => rfl
  | cons e es ih => exact (ih _).trans (engineStep_cancels e s)

/-- ENGINE's moves before HOST's next operation lead to a move of HOST. -/
theorem Script.phase {I : List Move → State → Prop} (script : Script I) {rest : List Move} {cs : List Bool} {s : State}
    (h : Ahead I rest cs s) : Ahead (fun m => I (.host :: m)) rest cs (enginePhase s) := by
  obtain ⟨m, hs, hc, hm⟩ := h
  obtain ⟨es, m, rfl⟩ | ⟨es, rfl⟩ := moves_cases m
  · rw [List.append_assoc, List.cons_append] at hs
    refine ⟨m, enginePhase_sched hs, ?_, ?_⟩
    · rw [enginePhase_eq hs, engineSteps_cancels, hc]
    · rw [enginePhase_eq hs]
      exact script.steps es (script.sched _ hm)
  · exact absurd (script.host hm) (by simp)

/-! ### Stages of a call -/

/-- A condition on the chip that the ENGINE steps of `S` keep, and a read of HOST too. -/
structure Stage (S : EngineStep → Prop) (P : State → Prop) : Prop where
  step : ∀ {e : EngineStep} {s : State}, S e → P s → P (engineStep e s)
  sched : ∀ {s : State} (l : List Move), P s → P { s with sched := l }
  cancels : ∀ {s : State} (cs : List Bool), P s → P { s with cancels := cs }
  answered : ∀ {s : State} (b : Byte), P s → P (answer b s)
  unmarked : ∀ {s : State}, P s → s.refused = none

/-- A stage that leaves a value open. -/
theorem Stage.exists {β : Type} {S : EngineStep → Prop} {C : β → Prop} {P : β → State → Prop} (stage : ∀ x, Stage S (P x)) :
    Stage S fun s => ∃ x, C x ∧ P x s where
  step := fun he ⟨x, hx, h⟩ => ⟨x, hx, (stage x).step he h⟩
  sched := fun l ⟨x, hx, h⟩ => ⟨x, hx, (stage x).sched l h⟩
  cancels := fun cs ⟨x, hx, h⟩ => ⟨x, hx, (stage x).cancels cs h⟩
  answered := fun b ⟨x, hx, h⟩ => ⟨x, hx, (stage x).answered b h⟩
  unmarked := fun ⟨x, _, h⟩ => (stage x).unmarked h

/-- The chip is in the stage `P`, and `n` moves of HOST are to come in it. -/
def During (S : EngineStep → Prop) (P : State → Prop) (n : Nat) (m : List Move) (s : State) : Prop := P s ∧ Moves S n m

section
variable {S : EngineStep → Prop} {P : State → Prop} {n : Nat}

theorem Stage.script (stage : Stage S P) : Script (During S P (n + 1)) where
  step := fun ⟨h, moves⟩ => ⟨stage.step moves.of_engine.1 h, moves.of_engine.2⟩
  sched := fun l ⟨h, moves⟩ => ⟨stage.sched l h, moves⟩
  cancels := fun cs ⟨h, moves⟩ => ⟨stage.cancels cs h, moves⟩
  host := fun ⟨_, moves⟩ => moves.host_mem

theorem Stage.steps (stage : Stage S P) {es : List EngineStep} {s : State} (only : ∀ e ∈ es, S e) (h : P s) :
    P (engineSteps es s) := by
  induction es generalizing s with
  | nil => exact h
  | cons e es ih =>
    obtain ⟨first, others⟩ := List.forall_mem_cons.1 only
    exact ih others (stage.step first h)

variable {α : Type} {Q : α → State → Prop} {rest : List Move} {cs : List Bool} {s : State}

theorem Stage.unmarked_of_ahead (stage : Stage S P) (h : Ahead (During S P n) rest cs s) : s.refused = none := by
  obtain ⟨_, _, _, hp, _⟩ := h
  exact stage.unmarked hp

theorem Stage.phase (stage : Stage S P) (h : Ahead (During S P (n + 1)) rest cs s) :
    Ahead (During S P n) rest cs (enginePhase s) := by
  obtain ⟨m, hs, hc, hp, moves⟩ := stage.script.phase h
  obtain ⟨_, hk, moves⟩ := moves.of_host
  cases hk
  exact ⟨m, hs, hc, hp, moves⟩

/-- HOST's last move in a stage leads to the end of the stage's moves. -/
theorem Stage.phase_last (stage : Stage S P) (h : Ahead (During S P 0) (.host :: rest) cs s) :
    P (enginePhase s) ∧ (enginePhase s).sched = rest ∧ (enginePhase s).cancels = cs := by
  obtain ⟨m, hs, hc, hp, count, only⟩ := h
  obtain ⟨es, m, rfl⟩ | ⟨es, rfl⟩ := moves_cases m
  · rw [List.count_append, List.count_cons_self] at count
    omega
  · rw [enginePhase_eq hs, engineSteps_sched, engineSteps_cancels]
    exact ⟨stage.steps (fun e he => only e (List.mem_map_of_mem he)) (stage.sched _ hp), rfl, hc⟩

/-- A write in a stage leads to the stage that its register's effect establishes. -/
theorem Stage.returns_wr {P' : State → Prop} (stage : Stage S P) {a : RegAddr} {v : Byte} {k : HostProg α}
    (h : Ahead (During S P (n + 1)) rest cs s) (ready : ∀ u, P u → BusReady u)
    (effect : ∀ u, P u → P' (registerWrite a v u))
    (next : ∀ u, Ahead (During S P' n) rest cs u → Returns k u Q) : Returns (.wr a v k) s Q := by
  obtain ⟨m, hs, hc, hp, moves⟩ := stage.phase h
  refine Machine.returns_wr (ready _ hp) (stage.unmarked hp) (next _ ⟨m, ?_, ?_, effect _ hp, moves⟩) <;>
    rw [registerWrite_frame]
  · exact hs
  · exact hc

/-- The write that is HOST's last move in a stage. -/
theorem Stage.returns_wr_last {P' : State → Prop} (stage : Stage S P) {a : RegAddr} {v : Byte} {k : HostProg α}
    (h : Ahead (During S P 0) (.host :: rest) cs s) (ready : ∀ u, P u → BusReady u)
    (effect : ∀ u, P u → P' (registerWrite a v u))
    (next : ∀ u, P' u → u.sched = rest → u.cancels = cs → Returns k u Q) : Returns (.wr a v k) s Q := by
  obtain ⟨hp, hs, hc⟩ := stage.phase_last h
  refine Machine.returns_wr (ready _ hp) (stage.unmarked hp) (next _ (effect _ hp) ?_ ?_) <;> rw [registerWrite_frame]
  · exact hs
  · exact hc

/-- A read in a stage, whose answer the stage knows at the bits of `mask`. -/
theorem Stage.returns_rd (stage : Stage S P) {a : RegAddr} {mask v : Byte} {k : Byte → HostProg α}
    (h : Ahead (During S P (n + 1)) rest cs s) (ha : a ≠ fifoDataReg) (shows : ∀ u, P u → ReadsAs a mask v u)
    (next : ∀ b u, b &&& mask = v → Ahead (During S P n) rest cs u → Returns (k b) u Q) : Returns (.rd a k) s Q := by
  obtain ⟨m, hs, hc, hp, moves⟩ := stage.phase h
  exact Machine.returns_rd (stage.unmarked hp) ha (shows _ hp) fun b hb =>
    next b _ hb ⟨m, hs, hc, stage.answered b hp, moves⟩

end

/-! ### Waiting for a step -/

/-- The stage `P` lasts until the step `d`, with which `J` begins. `p` counts HOST's moves before `d`, and those that `J`
counts. -/
inductive Until (S : EngineStep → Prop) (P : State → Prop) (d : EngineStep) (J : Nat → List Move → State → Prop)
    (p : Nat) : List Move → State → Prop
  | before {k q : Nat} {m more : List Move} {s : State} (stage : P s) (moves : Moves S k m) (count : k + q = p)
      (crossed : ∀ u, P u → J q more (engineStep d u)) : Until S P d J p (m ++ .engine d :: more) s
  | after {m : List Move} {s : State} (later : J p m s) : Until S P d J p m s

section
variable {S : EngineStep → Prop} {P : State → Prop} {d : EngineStep} {J : Nat → List Move → State → Prop} {p : Nat}
  {m : List Move} {s : State}

theorem Until.script (stage : Stage S P) (later : ∀ q, Script (J q)) : Script (Until S P d J p) where
  step := by
    intro e m s h
    generalize hl : Move.engine e :: m = l at h
    cases h with
    | after hj => exact .after ((later p).step (hl ▸ hj))
    | before hp moves count crossed =>
      rename_i k q before more
      cases before with
      | nil =>
        obtain ⟨rfl, rfl⟩ : e = d ∧ m = more := by simpa using hl
        obtain rfl : q = p := by
          have : k = 0 := moves.1.symm
          omega
        exact .after (crossed _ hp)
      | cons b before =>
        obtain ⟨rfl, rfl⟩ := List.cons.inj hl
        exact .before (stage.step moves.of_engine.1 hp) moves.of_engine.2 count crossed
  sched := by
    intro m s l h
    cases h with
    | after hj => exact .after ((later p).sched l hj)
    | before hp moves count crossed => exact .before (stage.sched l hp) moves count crossed
  cancels := by
    intro m s cs h
    cases h with
    | after hj => exact .after ((later p).cancels cs hj)
    | before hp moves count crossed => exact .before (stage.cancels cs hp) moves count crossed
  host := by
    intro m s h
    cases h with
    | after hj => exact (later p).host hj
    | before hp _ _ crossed =>
      exact List.mem_append_right _ (List.mem_cons_of_mem _ ((later _).host (crossed _ hp)))

/-- At a move of HOST the step has not come yet, and one move fewer is left, or it has. -/
theorem Until.of_host (h : Until S P d J p (.host :: m) s) :
    (P s ∧ ∃ k, p = k + 1 ∧ ∀ u, P u → Until S P d J k m u) ∨ J p (.host :: m) s := by
  generalize hl : Move.host :: m = l at h
  cases h with
  | after hj => exact .inr hj
  | before hp moves count crossed =>
    rename_i k q before more
    refine .inl ⟨hp, ?_⟩
    cases before with
    | nil => exact nomatch (List.cons.inj hl).1
    | cons b before =>
      obtain ⟨rfl, rfl⟩ := List.cons.inj hl
      obtain ⟨j, hk, fewer⟩ := moves.of_host
      exact ⟨j + q, by omega, fun u hu => .before hu fewer rfl crossed⟩

end

/-! ### A chip without a step of its own -/

/-- In a quiescent state (rule R404) only OVERHEAT can change anything. -/
theorem engineStep_of_quiescent {e : EngineStep} {s : State} (quiet : engineQuiescent s = true)
    (calm : e = .overheat → s.allowOverheat = false) : engineStep e s = s := by
  by_cases heat : e = .overheat
  · subst heat
    exact engineStep_overheat_of_disabled (.inr (.inl (calm rfl)))
  · refine engineStep_of_disabled ?_
    have own : e ∈ ownSteps := by cases e <;> first | exact absurd rfl heat | decide
    simpa using List.all_eq_true.1 quiet e own

/-- The steps that NO_OVERHEAT admits, where `allow` is ALLOW_OVERHEAT (rule R531). -/
def Calm (allow : Bool) (e : EngineStep) : Prop := e = .overheat → allow = false

/-- A stage of quiescent states. -/
theorem stage_of_quiescent {allow : Bool} {P : State → Prop} (quiet : ∀ s, P s → engineQuiescent s = true)
    (parameter : ∀ s, P s → s.allowOverheat = allow) (unmarked : ∀ s, P s → s.refused = none)
    (sched : ∀ s l, P s → P { s with sched := l })
    (cancels : ∀ s cs, P s → P { s with cancels := cs }) (answered : ∀ s b, P s → P (answer b s)) :
    Stage (Calm allow) P where
  step {e s} he h := by
    rw [engineStep_of_quiescent (quiet s h) fun heat => (parameter s h).trans (he heat)]
    exact h
  sched l h := sched _ l h
  cancels cs h := cancels _ cs h
  answered b h := answered _ b h
  unmarked h := unmarked _ h

end Sys2Proof.Machine
end

section
/-! `reset()` (rules R309, R505, R506, R531): the wait for a wake-up or reset in progress, the SoftReset and its wait, and the
configuration, which is written in a quiescent chip. -/

namespace Sys2Proof.Machine

open Sys2Proof

/-! ### The wait for PowerDown = 0 -/

/-- CommandReg shows PowerDown = 1 in soft power-down, and during a reset or wake-up (rules R37, R65). -/
theorem readsAs_powerDown {s : State} (hn : s.nrst = true) :
    ReadsAs commandReg 0x10 (if s.powerDown || s.pdBusy then 0x10 else 0) s := by
  obtain ⟨b, he, hb⟩ := readsAs_command hn
  have bit : b &&& 0x10 = b &&& 0x3F &&& 0x10 := (BitVec.and_assoc b 0x3F 0x10).symm
  refine ⟨b, he, ?_⟩
  rw [bit, hb]
  generalize s.rcvOff = r, (s.powerDown || s.pdBusy) = p, s.cmd = c
  cases r <;> cases p <;> cases c <;> rfl

/-- WAITPD (rule R505) sees the end of the stage in which the chip is busy, if it comes within the budget. -/
theorem returns_waitPowerDown {S S' : EngineStep → Prop} {P P' : State → Prop} {d : EngineStep} {n p budget : Nat}
    {rest : List Move} {cs : List Bool} {s : State} (stage : Stage S P) (busy : ∀ u, P u → u.nrst = true ∧ u.pdBusy = true)
    (stage' : Stage S' P') (ready : ∀ u, P' u → CommandReady u)
    (h : Ahead (Until S P d (fun _ => During S' P' (n + 1)) p) rest cs s) (intime : p < budget) :
    Returns (waitPowerDown budget) s fun r t => r = true ∧ Ahead (During S' P' n) rest cs t := by
  induction budget generalizing p s with
  | zero => omega
  | succ budget ih =>
    obtain ⟨m, hs, hc, hm⟩ := (Until.script stage fun _ => stage'.script).phase h
    obtain ⟨hp, k, rfl, back⟩ | ⟨hp, moves⟩ := hm.of_host
    · obtain ⟨released, settling⟩ := busy _ hp
      have shows := readsAs_powerDown released
      rw [settling, Bool.or_true] at shows
      refine returns_rd (stage.unmarked hp) (by decide) shows fun b hb => ?_
      rw [if_neg (by rw [hb]; decide)]
      exact ih ⟨m, hs, hc, back _ (stage.answered b hp)⟩ (by omega)
    · have on := ready _ hp
      have shows := readsAs_powerDown on.released
      rw [on.settled, on.awake] at shows
      refine returns_rd (stage'.unmarked hp) (by decide) shows fun b hb => ?_
      rw [if_pos (by rw [hb]; rfl)]
      obtain ⟨j, hj, moves⟩ := moves.of_host
      cases hj
      exact (returns_ret_iff _ _).2 ⟨stage'.unmarked (stage'.answered b hp), rfl, m, hs, hc, stage'.answered b hp, moves⟩

/-! ### The chip before the configuration -/

/-- A request that is pending would be sent, not refused (rule R309). -/
def SendSafe (s : State) : Prop := s.cmd = .transceive → s.txReq = true → radioAdmitted s = true ∧ s.fifo ≠ []

/-- A reset (`resets`) or a wake-up is in progress. -/
structure Settling (allow : Bool) (resets noTx : Prop) (s : State) : Prop where
  released : s.nrst = true
  awake : s.powerDown = false
  busy : s.pdBusy = true
  command : s.cmd = .softReset ↔ resets
  unmarked : s.refused = none
  safe : noTx ∨ SendSafe s
  parameter : s.allowOverheat = allow

/-- The chip is on, and no transmission that may come is refused. -/
structure Settled (allow : Bool) (noTx : Prop) (s : State) : Prop extends CommandReady s where
  no_reset : s.cmd ≠ .softReset
  unmarked : s.refused = none
  safe : noTx ∨ SendSafe s
  parameter : s.allowOverheat = allow

section
variable {allow : Bool} {resets noTx : Prop} {s : State}

/-- Until it ends, only OVERHEAT has a step. -/
theorem settling_stage [Decidable resets] :
    Stage (· ≠ if resets then .resetDone else .wakeDone) (Settling allow resets noTx) where
  step {e s} other h := by
    obtain ⟨on, he⟩ | ⟨_, he⟩ := engineStep_cases e s <;> rw [he]
    · have stopped : engineRuns s = false := by simp [engineRuns, h.busy]
      cases e with
      | overheat => exact { h with }
      | resetDone =>
        obtain ⟨_, _, hc, _⟩ := (engineEnabled_resetDone s).1 on
        exact absurd (if_pos (h.command.1 hc)).symm other
      | wakeDone =>
        obtain ⟨_, _, _, hc⟩ := (engineEnabled_wakeDone s).1 on
        exact absurd (if_neg (mt h.command.2 hc)).symm other
      | crcByte | crcDone | tx | rx | timerExpire => simp [engineEnabled, stopped] at on
    · exact h
  sched _ h := { h with }
  cancels _ h := { h with }
  answered _ h := { h with }
  unmarked h := h.unmarked

/-- FIELD's choice at a transmission, and what it leaves. -/
theorem exists_fieldChoice (s : State) : ∃ (choice : Option Reply) (field' : List (Option Reply)) (draws' : Nat),
    (s.field = choice :: field' ∧ draws' = s.draws + 1) ∨
      (s.field = [] ∧ field' = [] ∧ choice = Config.freeReply (s.draws + 1) ∧ draws' = s.draws + 2) := by
  cases s.field with
  | cons choice field' => exact ⟨choice, field', _, .inl ⟨rfl, rfl⟩⟩
  | nil => exact ⟨_, [], _, .inr ⟨rfl, rfl, rfl, rfl⟩⟩

theorem settled_stage : Stage (fun e => noTx → e ≠ .tx) (Settled allow noTx) where
  step {e s} other h := by
    obtain ⟨on, he⟩ | ⟨_, he⟩ := engineStep_cases e s
    · cases e with
      | crcByte =>
        have crc := ((engineEnabled_crcByte s).1 on).2.1
        rw [he, engineEffect, crcByteEffect_frame]
        exact { h with safe := .inr fun hc => nomatch crc.symm.trans hc }
      | tx =>
        obtain ⟨ready, hc, hm, hq⟩ := (engineEnabled_tx s).1 on
        obtain ⟨admitted, full⟩ := h.safe.resolve_left (fun no => other no rfl) hc hq
        obtain ⟨htx, hrx, ht⟩ := (radioAdmitted_iff s).1 admitted
        obtain ⟨_, _, _, choice⟩ := exists_fieldChoice s
        rw [transmitStep s _ _ _ ready hc hm hq full htx hrx ht choice]
        exact { h with safe := .inr fun _ none => nomatch none }
      | rx =>
        obtain ⟨r, hr⟩ := Option.ne_none_iff_exists'.1 ((engineEnabled_rx s).1 on).2.2.2.1
        obtain ⟨_, _, _, received⟩ := rxEffect_eq hr
        rw [he, engineEffect, received]
        refine { h with safe := h.safe.imp_right fun safe hc hq => ?_ }
        obtain ⟨admitted, full⟩ := safe hc hq
        exact ⟨admitted, List.append_ne_nil_of_left_ne_nil full _⟩
      | timerExpire =>
        rw [he, engineEffect, timerExpireEffect_frame]
        exact { h with }
      | crcDone | overheat =>
        rw [he]
        exact { h with }
      | resetDone =>
        obtain ⟨_, _, hc, _⟩ := (engineEnabled_resetDone s).1 on
        exact absurd hc h.no_reset
      | wakeDone =>
        obtain ⟨_, _, busy, _⟩ := (engineEnabled_wakeDone s).1 on
        exact nomatch h.settled.symm.trans busy
    · rw [he]
      exact h
  sched _ h := { h with }
  cancels _ h := { h with }
  answered _ h := { h with }
  unmarked h := h.unmarked

end

/-! ### The writes of CommandReg (rules R203, R225, R228) -/

section
variable {allow : Bool} {noTx : Prop} {s : State}

/-- Writing Idle on a chip that is on leaves no request. -/
theorem settled_of_idle_written (h : CommandReady s) (unmarked : s.refused = none) :
    Settled s.allowOverheat noTx (registerWrite commandReg 0x00 s) := by
  rw [show (0x00 : Byte) = cmdByte false false 0x0 from rfl, registerWrite_start false h cmdClass_idle]
  exact { h with no_reset := nofun, unmarked := unmarked, safe := .inr nofun, parameter := rfl }

/-- Writing Idle in soft power-down starts the wake-up. -/
theorem settling_of_idle_written {resets : Prop} (wakes : ¬resets) (hn : s.nrst = true) (hd : s.powerDown = true)
    (hc : s.cmd ≠ .softReset) (unmarked : s.refused = none) (safe : noTx ∨ SendSafe s) :
    Settling s.allowOverheat resets noTx (registerWrite commandReg 0x00 s) := by
  have wake : registerWrite commandReg 0x00 s = { setRcvOff false s with powerDown := false, pdBusy := true } :=
    (commandWrite_asleep false false 0x0 hd).trans (commandWhilePoweredDown_admitted false _ (.inl rfl))
  rw [wake]
  exact ⟨hn, rfl, rfl, iff_of_false hc wakes, unmarked, safe, rfl⟩

/-- Writing SoftReset on a chip that is on. -/
theorem Settled.reset_written (h : Settled allow noTx s) :
    Settling allow True True (registerWrite commandReg 0x0F s) := by
  rw [show (0x0F : Byte) = cmdByte false false 0xF from rfl, registerWrite_start false h.toCommandReady cmdClass_softReset]
  exact ⟨h.released, h.awake, rfl, iff_of_true rfl trivial, h.unmarked, .inl trivial, h.parameter⟩

end

end Sys2Proof.Machine
end

section
/-! `reset()` (rules R505, R506, R531): the configuration, and the call from each state of the chip. -/

namespace Sys2Proof.Machine

open Sys2Proof

/-! ### The end of a wake-up and of a reset -/

section
variable {allow : Bool} {resets noTx : Prop} {s : State}

theorem Settling.woken (h : Settling allow resets noTx s) (wakes : ¬resets) :
    Settled allow noTx (engineStep .wakeDone s) := by
  have running : s.cmd ≠ .softReset := mt h.command.1 wakes
  rw [resetAndWakeUpComplete.2.2.1 s h.released h.awake h.busy running]
  exact ⟨⟨⟨h.released, rfl⟩, h.awake⟩, running, h.unmarked, h.safe, h.parameter⟩

/-- The reset state with the values that are drawn, and the fields no operation of `reset()` depends on, erased. -/
def afterReset (allow : Bool) : State :=
  { State.reset with pdBusy := false, collPos := 0, tCounter := 0, draws := 0, hist := [], allowOverheat := allow }

/-- The fields that `reset()` leaves a value in. -/
def configPart (s : State) : State :=
  { s with
    collPos := 0, tCounter := 0, draws := 0, hist := [], busOut := 0, pinOut := false, hostOps := [], sched := []
    field := [], cancels := [] }

theorem Settling.reset_done (h : Settling allow resets noTx s) (yes : resets) :
    configPart (engineStep .resetDone s) = afterReset allow := by
  obtain ⟨_, _, _, done⟩ := resetAndWakeUpComplete.1 s h.released h.awake (h.command.2 yes) h.busy
  rw [done, ← h.parameter, configPart, h.unmarked]
  rfl

/-- A chip after a reset is settled, whatever request was pending before. -/
theorem settled_of_afterReset (h : configPart s = afterReset allow) : Settled allow noTx s := by
  have field {α : Type} (f : State → α) : f (configPart s) = f (afterReset allow) := congrArg f h
  have idle : s.cmd = .idle := field State.cmd
  exact {
    released := field State.nrst
    settled := field State.pdBusy
    awake := field State.powerDown
    no_reset := by simp [idle]
    unmarked := field State.refused
    safe := .inr fun hc => nomatch idle.symm.trans hc
    parameter := field State.allowOverheat }

end

/-! ### The configuration -/

/-- The chip is on and idle, and its timer is off. -/
structure Resting (s : State) : Prop extends CommandReady s where
  unmarked : s.refused = none
  idle : s.cmd = .idle
  timer_off : s.tRunning = false

theorem Resting.quiescent {s : State} (h : Resting s) : engineQuiescent s = true := by
  simp [engineQuiescent, ownSteps, engineEnabled, h.idle, h.timer_off, h.settled]

theorem Resting.of_configPart {s : State} (h : Resting (configPart s)) : Resting s := { h with }

/-- The stage in which the fields that `reset()` leaves a value in are those of `c`. -/
theorem configured_stage {c : State} (h : Resting c) : Stage (Calm c.allowOverheat) (configPart · = c) :=
  stage_of_quiescent (fun s hs => (Resting.of_configPart (s := s) (hs ▸ h)).quiescent)
    (fun _ hs => (congrArg State.allowOverheat hs :)) (fun s hs => (Resting.of_configPart (s := s) (hs ▸ h)).unmarked)
    (fun _ _ hs => hs) (fun _ _ hs => hs) (fun _ _ hs => hs)

/-- A write that stores a configuration: it changes nothing else. -/
structure Configures (a : RegAddr) (v : Byte) : Prop where
  config : ∀ s, configPart (registerWrite a v s) = registerWrite a v (configPart s)
  resting : ∀ s, Resting s → Resting (registerWrite a v s)
  parameter : ∀ s, (registerWrite a v s).allowOverheat = s.allowOverheat

/-- Writes one after another. -/
def writesThen {α : Type} (ws : List (RegAddr × Byte)) (k : HostProg α) : HostProg α :=
  ws.foldr (fun w k => .wr w.1 w.2 k) k

/-- What the writes leave. -/
def afterWrites (ws : List (RegAddr × Byte)) (s : State) : State := ws.foldl (fun s w => registerWrite w.1 w.2 s) s

/-- The registers `reset()` writes, but for the antenna (rule R505). -/
def resetWrites : List (RegAddr × Byte) :=
  [(tModeReg, 0x80), (tPrescalerReg, 0xA9), (tReloadRegH, 0x03), (tReloadRegL, 0xE8), (txASKReg, 0x40), (modeReg, 0x3D),
    (txModeReg, 0x00), (rxModeReg, 0x00), (bitFramingReg, 0x00)]

theorem resetConfiguration_eq : resetConfiguration = writesThen resetWrites driverAntennaOn := rfl

theorem configures_resetWrites : ∀ w ∈ resetWrites, Configures w.1 w.2 := by
  simp only [resetWrites, List.forall_mem_cons]
  and_intros
  all_goals first | exact ⟨fun _ => rfl, fun _ h => { h with }, fun _ => rfl⟩ | simp

section
variable {α : Type} {n : Nat} {rest : List Move} {cs : List Bool} {s c : State} {Q : α → State → Prop}

theorem Resting.returns_write {a : RegAddr} {v : Byte} {k : HostProg α} (h : Resting c) (configures : Configures a v)
    (ahead : Ahead (During (Calm c.allowOverheat) (configPart · = c) (n + 1)) rest cs s)
    (next : ∀ u, Ahead (During (Calm c.allowOverheat) (configPart · = registerWrite a v c) n) rest cs u → Returns k u Q) :
    Returns (.wr a v k) s Q :=
  (configured_stage h).returns_wr ahead (fun u hu => (Resting.of_configPart (s := u) (hu ▸ h)).toBusReady)
    (fun u hu => (configures.config u).trans (congrArg _ hu)) next

theorem Resting.returns_writesThen {ws : List (RegAddr × Byte)} {k : HostProg α} (h : Resting c)
    (configures : ∀ w ∈ ws, Configures w.1 w.2)
    (ahead : Ahead (During (Calm c.allowOverheat) (configPart · = c) (ws.length + n)) rest cs s)
    (next : ∀ u, Resting (afterWrites ws c) →
      Ahead (During (Calm c.allowOverheat) (configPart · = afterWrites ws c) n) rest cs u → Returns k u Q) :
    Returns (writesThen ws k) s Q := by
  induction ws generalizing s c with
  | nil =>
    rw [List.length_nil, Nat.zero_add] at ahead
    exact next s h ahead
  | cons w ws ih =>
    rw [List.length_cons, Nat.succ_add] at ahead
    obtain ⟨first, others⟩ := List.forall_mem_cons.1 configures
    refine h.returns_write first ahead fun u hu => ?_
    rw [← first.parameter c] at hu next
    exact ih (first.resting c h) others hu next

end

/-- The chip as `reset()` leaves it (rule R505). -/
def configured (allow : Bool) : State := registerWrite txControlReg 0x83 (afterWrites resetWrites (afterReset allow))

theorem resting_afterReset (allow : Bool) : Resting (afterReset allow) := ⟨⟨⟨rfl, rfl⟩, rfl⟩, rfl, rfl, rfl⟩

/-- The configuration and the antenna (rules R246, R505). -/
theorem returns_resetConfiguration {allow : Bool} {rest : List Move} {cs : List Bool} {s : State}
    (ahead : Ahead (During (Calm allow) (configPart · = afterReset allow) 11) rest cs s) :
    Returns resetConfiguration s fun _ t => t.refused = none ∧ configPart t = configured allow := by
  rw [resetConfiguration_eq]
  refine (resting_afterReset allow).returns_writesThen (n := 2) configures_resetWrites ahead fun u h hu => ?_
  have shows (u : State) (hu : configPart u = afterWrites resetWrites (afterReset allow)) :
      ReadsAs txControlReg 0xFF 0x80 u := by
    have ready := (Resting.of_configPart (s := u) (hu ▸ h)).toBusReady
    exact readsAs_of_shown ready (by decide) (by decide) fun _ => (and_ff _).trans (congrArg State.txControl hu)
  refine (configured_stage h).returns_rd hu (by decide) shows fun b u hb hu => ?_
  obtain rfl : b = 0x80 := (and_ff b).symm.trans hb
  refine h.returns_write ⟨fun _ => rfl, fun _ h => { h with }, fun _ => rfl⟩ hu fun u hu => ?_
  obtain ⟨_, _, _, hu, _⟩ := hu
  have unmarked : u.refused = none := congrArg State.refused hu
  exact (returns_ret_iff _ _).2 ⟨unmarked, unmarked, hu⟩

end Sys2Proof.Machine
end

section
/-! `reset()` (rules R505, R506, R531): the call from each state of the chip, under PROMPT_RESET. -/

namespace Sys2Proof.Machine

open Sys2Proof

section
variable {allow : Bool} {noTx : Prop} {s : State} {second reads rest : List Move} {cs : List Bool} {budget : Nat}

/-- The SoftReset of a settled chip, its wait and the configuration. -/
theorem returns_softReset
    (h : Ahead (During (fun e => noTx → e ≠ .tx) (Settled allow noTx) 0)
      (.host :: (second ++ .engine .resetDone :: reads ++ rest)) cs s)
    (first : .engine .resetDone ∉ second) (intime : second.count .host < budget) (count : reads.count .host = 12)
    (calm : allow = true → .engine .overheat ∉ reads) :
    Returns (.wr commandReg 0x0F <| andThen (waitPowerDown budget) fun done =>
      if done then andThen resetConfiguration fun _ => .ret .ok else .ret .timeout) s fun r t =>
        r = Status.ok ∧ configPart t = configured allow := by
  refine settled_stage.returns_wr_last h (fun _ hu => hu.toBusReady) (fun _ hu => hu.reset_written) fun u hu hs hc => ?_
  have only (e : EngineStep) (he : .engine e ∈ second) : e ≠ if True then .resetDone else .wakeDone :=
    fun done => first (done.trans (if_pos trivial) ▸ he)
  have cool (e : EngineStep) (he : .engine e ∈ reads) : Calm allow e := fun heat =>
    Bool.eq_false_iff.2 fun on => calm on (heat ▸ he)
  have polled : Returns (waitPowerDown budget) u _ :=
    returns_waitPowerDown (n := 11) settling_stage (fun _ hu => ⟨hu.released, hu.busy⟩)
      (configured_stage (resting_afterReset allow)) (fun _ hu => (settled_of_afterReset (noTx := True) hu).toCommandReady)
      ⟨_, hs, hc, .before hu ⟨rfl, only⟩ (Nat.add_zero _) fun v hv => ⟨hv.reset_done trivial, count, cool⟩⟩ intime
  refine returns_andThen (polled.mono fun r t ht => ?_)
  obtain ⟨rfl, ahead⟩ := ht
  refine returns_andThen ((returns_resetConfiguration ahead).mono fun _ t ht => ?_)
  exact (returns_ret_iff _ _).2 ⟨ht.1, rfl, ht.2⟩

/-- The wait for a wake-up or reset in progress, and what `reset()` does after it. -/
theorem returns_reset_wait {S : EngineStep → Prop} {P : State → Prop} {d : EngineStep} {p : Nat} (stage : Stage S P)
    (busy : ∀ u, P u → u.nrst = true ∧ u.pdBusy = true) (soon : p < Config.resetPollBudget)
    (h : Ahead (Until S P d (fun _ => During (fun e => noTx → e ≠ .tx) (Settled allow noTx) 1) p)
      (.host :: (second ++ .engine .resetDone :: reads ++ rest)) cs s)
    (first : .engine .resetDone ∉ second) (intime : second.count .host < Config.resetPollBudget)
    (count : reads.count .host = 12) (calm : allow = true → .engine .overheat ∉ reads) :
    Returns (andThen (waitPowerDown Config.resetPollBudget) fun awake =>
      if awake then
        .wr commandReg 0x0F <| andThen (waitPowerDown Config.resetPollBudget) fun done =>
          if done then andThen resetConfiguration fun _ => .ret .ok else .ret .timeout
      else .ret .timeout) s fun r t => r = Status.ok ∧ configPart t = configured allow := by
  have polled := returns_waitPowerDown stage busy settled_stage (fun _ hu => hu.toCommandReady) h soon
  refine returns_andThen (polled.mono fun r t ht => ?_)
  obtain ⟨rfl, ahead⟩ := ht
  exact returns_softReset ahead first intime count calm

end

/-! ### The first write -/

section
variable {s : State} (released : s.nrst = true) (unmarked : s.refused = none)
  (asleep : s.powerDown = true → s.pdBusy = false ∧ s.cmd ≠ .softReset)
include released unmarked asleep

/-- The first write of `reset()`, the next move of the schedule: on a chip that is on it stops the command; a sleeping chip
starts to wake up, and one in a reset or wake-up ignores it. -/
theorem returns_reset_first {α : Type} {k : HostProg α} {Q : α → State → Prop} {l : List Move}
    (sched : s.sched = .host :: l)
    (on : ∀ u, s.powerDown = false ∧ s.pdBusy = false → Settled s.allowOverheat False u → u.sched = l → Returns k u Q)
    (off : ∀ u, ¬(s.powerDown = false ∧ s.pdBusy = false) →
      (∀ noTx, noTx ∨ SendSafe s → Settling s.allowOverheat (s.pdBusy = true ∧ s.cmd = .softReset) noTx u) →
      u.sched = l → Returns k u Q) : Returns (.wr commandReg 0x00 k) s Q := by
  have phase : enginePhase s = { s with sched := l } := enginePhase_eq (es := []) sched
  have unmarked' : (enginePhase s).refused = none := phase ▸ unmarked
  by_cases hb : s.pdBusy = true
  · have awake : s.powerDown = false := Bool.eq_false_iff.2 fun hd => nomatch hb.symm.trans (asleep hd).1
    have ignored : exec (.idle false) (enginePhase s) = .next (enginePhase s) := by
      rw [phase]
      exact writesAreIgnoredWhileBusy _ _ (by decide) released hb
    refine (returns_wr_iff _ _ _ _).2 ⟨_, transact_of_next unmarked' ignored, ?_⟩
    rw [phase]
    refine off _ (fun h => by simp [h.2] at hb) (fun noTx safe => ?_) rfl
    exact ⟨released, awake, hb, ⟨fun hc => ⟨hb, hc⟩, fun h => h.2⟩, unmarked, safe, rfl⟩
  · have settled := Bool.eq_false_iff.2 hb
    refine returns_wr (phase ▸ ⟨released, settled⟩) unmarked' ?_
    rw [phase]
    have sched' : (registerWrite commandReg 0x00 { s with sched := l }).sched = l := by rw [registerWrite_frame]
    by_cases hd : s.powerDown = true
    · refine off _ (fun h => by simp [h.1] at hd) (fun noTx safe => ?_) sched'
      exact settling_of_idle_written (s := { s with sched := l }) (fun h => hb h.1) released hd (asleep hd).2 unmarked safe
    · have awake := Bool.eq_false_iff.2 hd
      refine on _ ⟨awake, settled⟩ ?_ sched'
      exact settled_of_idle_written (s := { s with sched := l }) ⟨⟨released, settled⟩, awake⟩ unmarked

/-- `reset()` under PROMPT_RESET. -/
theorem returns_driverReset {rest : List Move} (prompt : PromptReset s rest) :
    Returns driverReset s fun r t => r = .ok ∧ configPart t = configured s.allowOverheat := by
  obtain ⟨wake, start, second, reads, hs, waits, quick, first, intime, count, calm⟩ := prompt
  have sched : s.sched = .host :: (wake ++ .host :: start ++ .host :: (second ++ .engine .resetDone :: reads ++ rest)) := by
    simp [hs]
  refine returns_reset_first released unmarked asleep sched (fun u on hu hus => ?on) fun u off hu hus => ?off
  case on =>
    rw [PromptWake, if_pos on] at waits
    have moves : Moves (fun e => False → e ≠ .tx) 1 (wake ++ .host :: start) :=
      ⟨by rw [List.count_append, List.count_cons_self, waits, quick], nofun⟩
    exact returns_reset_wait (settling_stage (allow := true) (resets := True) (noTx := True))
      (fun _ hu => ⟨hu.released, hu.busy⟩) (Nat.succ_pos _) ⟨_, hus, rfl, .after (d := .resetDone) ⟨hu, moves⟩⟩ first intime
      count calm
  case off =>
    rw [PromptWake, if_neg off] at waits
    obtain ⟨before, last, rfl, only, soon, none_left, safe⟩ := waits
    have sendable : .engine .tx ∉ last ++ start ∨ SendSafe s := by
      obtain no_request | safe | no_tx := safe
      · exact .inr fun _ request => nomatch no_request.symm.trans request
      · exact .inr fun _ _ => safe
      · exact .inl no_tx
    have moves : Moves (fun e => .engine .tx ∉ last ++ start → e ≠ .tx) 1 (last ++ .host :: start) := by
      refine ⟨by rw [List.count_append, List.count_cons_self, none_left, quick], fun e he no_tx tx => no_tx ?_⟩
      simpa [tx] using he
    refine returns_reset_wait settling_stage (fun _ hu => ⟨hu.released, hu.busy⟩) soon
      ⟨_, by simpa using hus, rfl, .before (hu _ sendable)
        ⟨rfl, fun e he done => only (done ▸ he)⟩ (Nat.add_zero _) fun v hv => ⟨?_, moves⟩⟩ first intime count calm
    by_cases resets : s.pdBusy = true ∧ s.cmd = .softReset
    · rw [if_pos resets]
      exact settled_of_afterReset (hv.reset_done resets)
    · rw [if_neg resets]
      exact hv.woken resets

end

/-- The values that the bits of several writes, or a reset value and a write, make up. -/
theorem configured_values : ∀ allow : Bool, (configured allow).tPrescaler = 0x0A9 ∧ (configured allow).tReload = 0x03E8 ∧
    (configured allow).mode &&& 0xAB = 0x29 ∧ (configured allow).txMode &&& 0xF8 = 0 ∧
    (configured allow).rxMode &&& 0xFC = 0 := by
  decide

/-- Settles O60, from the run of `reset()`: the chip is settled before the SoftReset, in reset until RESET_DONE, and
quiescent while the configuration is written. -/
theorem resetEstablishesTheConfiguration : Obligations.ResetEstablishesTheConfiguration := by
  intro s rest released unmarked asleep prompt
  obtain ⟨_, value, rfl, config⟩ := returns_driverReset released unmarked asleep prompt
  have field {α : Type} (f : State → α) : f (configPart (runProg driverReset s).state) = f (configured s.allowOverheat) :=
    congrArg f config
  obtain ⟨prescaler, reload, mode, txMode, rxMode⟩ := configured_values s.allowOverheat
  exact ⟨value, field State.tMode, (field State.tPrescaler).trans prescaler, (field State.tReload).trans reload,
    field State.txASK, (field (State.mode · &&& 0xAB)).trans mode, (field (State.txMode · &&& 0xF8)).trans txMode,
    (field (State.rxMode · &&& 0xFC)).trans rxMode, field State.startSend, field State.rxAlign, field State.txLastBits,
    field State.txControl, field State.cmd, field State.fifo, field State.comIrq, field State.crcIrq, field State.err,
    field State.valuesAfterColl, field State.comIEn, field State.divIEn, field State.tRunning, field State.refused⟩

end Sys2Proof.Machine
end

section
/-! A call of `transceive` up to the transmission (rules R330 to R333, R531): the FIFO is loaded in an idle chip, Transceive
starts, and StartSend makes the request, while ENGINE has no step. -/

namespace Sys2Proof.Machine

open Sys2Proof

/-! ### The fields a call depends on before its transmission -/

/-- The state with every field that the call writes, or does not read, at its reset value. -/
def callPart (s : State) : State :=
  { State.reset with
    nrst := s.nrst, pdBusy := s.pdBusy, powerDown := s.powerDown, refused := s.refused, hist := s.hist, txMode := s.txMode
    rxMode := s.rxMode, tMode := s.tMode, txControl := s.txControl, tRunning := s.tRunning, field := s.field
    allowOverheat := s.allowOverheat }

/-- The chip takes a call: it is on and unmarked, its radio configuration is admitted, and its timer is off
(QUIET_TIMER). -/
structure Callable (s : State) : Prop extends CommandReady s where
  unmarked : s.refused = none
  admitted : radioAdmitted s = true
  timer_off : s.tRunning = false

theorem Callable.congr {s t : State} (h : Callable s) (e : callPart t = callPart s) : Callable t := by
  have part : Callable (callPart t) := e ▸ { h with }
  exact { part with }

/-! ### Loading -/

/-- No command is active; the reception flags RxIRq and TimerIRq, BitFramingReg's fields and the FIFO are as given. -/
structure Loading (s₀ : State) (irq : BitVec 7) (a l : BitVec 3) (q : List Byte) (s : State) : Prop where
  part : callPart s = callPart s₀
  idle : s.cmd = .idle
  irq_eq : s.comIrq &&& 0x21 = irq
  align_eq : s.rxAlign = a
  lastBits_eq : s.txLastBits = l
  fifo_eq : s.fifo = q

/-- The alerts are neither RxIRq nor TimerIRq. -/
theorem alertRise_and (s : State) (q : List Byte) (w : BitVec 6) : alertRise s q w &&& 0x21 = 0 := by
  unfold alertRise
  split <;> split <;> rfl

theorem or_alertRise_and (c : BitVec 7) (s : State) (q : List Byte) (w : BitVec 6) :
    (c ||| alertRise s q w) &&& 0x21 = c &&& 0x21 := by
  rw [BitVec.and_or_distrib_right, alertRise_and]
  exact BitVec.or_zero

section
variable {s₀ s : State} {irq : BitVec 7} {a l : BitVec 3} {q : List Byte}

theorem Loading.resting (h : Loading s₀ irq a l q s) (h₀ : Callable s₀) : Resting s :=
  have call := h₀.congr h.part
  { call with idle := h.idle }

theorem loading_stage (h₀ : Callable s₀) : Stage (Calm s₀.allowOverheat) (Loading s₀ irq a l q) :=
  stage_of_quiescent (fun _ h => (h.resting h₀).quiescent) (fun _ h => (congrArg State.allowOverheat h.part :))
    (fun _ h => (h.resting h₀).unmarked) (fun _ _ h => { h with }) (fun _ _ h => { h with }) (fun _ _ h => { h with })

/-- The first write of the call stops the active command. -/
theorem Callable.stopped (h : Callable s) (same : callPart s = callPart s₀) :
    Loading s₀ (s.comIrq &&& 0x21) s.rxAlign s.txLastBits s.fifo (registerWrite commandReg 0x00 s) := by
  rw [show (0x00 : Byte) = cmdByte false false 0x0 from rfl, registerWrite_start false h.toCommandReady cmdClass_idle]
  exact ⟨same, rfl, rfl, rfl, rfl, rfl⟩

theorem Loading.irq_cleared (h : Loading s₀ irq a l q s) : Loading s₀ 0 a l q (registerWrite comIrqReg 0x7F s) := by
  refine { h with irq_eq := ?_ }
  show s.comIrq &&& ~~~0x7F &&& 0x21 = 0
  rw [BitVec.and_assoc]
  exact BitVec.and_zero

theorem Loading.flushed (h : Loading s₀ irq a l q s) : Loading s₀ irq a l [] (registerWrite fifoLevelReg 0x80 s) := by
  have flush : registerWrite fifoLevelReg 0x80 s = hostFlush s := rfl
  rw [flush, hostFlush_eq]
  exact { h with irq_eq := (or_alertRise_and _ _ _ _).trans h.irq_eq, fifo_eq := rfl }

theorem Loading.framed (h : Loading s₀ irq a l q s) {v : Byte} (hv : v.getLsbD 7 = false) :
    Loading s₀ irq (v.extractLsb' 4 3) (v.extractLsb' 0 3) q (registerWrite bitFramingReg v s) := by
  rw [registerWrite_bitFraming_no_strobe s hv]
  exact { h with align_eq := rfl, lastBits_eq := rfl }

theorem Loading.pushed (h : Loading s₀ irq a l q s) (b : Byte) (room : q.length < 64) :
    Loading s₀ irq a l (q ++ [b]) (registerWrite fifoDataReg b s) := by
  have push : registerWrite fifoDataReg b s = hostPush b s := rfl
  rw [push, hostPush_of_room b (h.fifo_eq ▸ room)]
  refine { h with irq_eq := ?_, fifo_eq := by rw [h.fifo_eq] }
  show (_ ||| _ ||| _) &&& 0x21 = _
  rw [or_alertRise_and, if_neg (by simp [h.idle])]
  exact (congrArg (· &&& 0x21) BitVec.or_zero).trans h.irq_eq

/-- The writes of FIFODataReg append the bytes that fit. -/
theorem Loading.returns_fifoWrites (h₀ : Callable s₀) {bs : List Byte} {n : Nat} {rest : List Move} {cs : List Bool}
    (h : Ahead (During (Calm s₀.allowOverheat) (Loading s₀ irq a l q) (bs.length + n)) rest cs s)
    (room : q.length + bs.length ≤ 64) :
    Returns (fifoWrites bs) s fun _ t =>
      Ahead (During (Calm s₀.allowOverheat) (Loading s₀ irq a l (q ++ bs)) n) rest cs t := by
  induction bs generalizing s q with
  | nil =>
    rw [List.append_nil]
    rw [List.length_nil, Nat.zero_add] at h
    exact (returns_ret_iff _ _).2 ⟨(loading_stage h₀).unmarked_of_ahead h, h⟩
  | cons b bs ih =>
    rw [List.length_cons] at room h
    rw [Nat.succ_add] at h
    refine (loading_stage h₀).returns_wr h (fun _ hu => (hu.resting h₀).toBusReady) (fun _ hu => hu.pushed b (by omega))
      fun u hu => ?_
    have rest := ih hu (by simp; omega)
    rwa [List.append_assoc] at rest

end

/-! ### The request -/

/-- Transceive waits to send the FIFO's bytes, and `request` says whether StartSend has been written. -/
structure Sending (s₀ : State) (a l : BitVec 3) (q : List Byte) (request : Bool) (s : State) : Prop where
  part : callPart s = callPart s₀
  active : s.cmd = .transceive
  waits : s.modem = .waitStart
  request_eq : s.txReq = request
  listens : s.rcvOff = false
  irq_clear : s.comIrq &&& 0x21 = 0
  err_clear : s.err &&& 0x1B = 0
  align_eq : s.rxAlign = a
  lastBits_eq : s.txLastBits = l
  fifo_eq : s.fifo = q

section
variable {s₀ s : State} {a l : BitVec 3} {q : List Byte} {request : Bool}

/-- Before TX only OVERHEAT has a step. -/
theorem Sending.engineStep_eq (h : Sending s₀ a l q request s) (h₀ : Callable s₀) {e : EngineStep}
    (waiting : request = true → e ≠ .tx) (calm : Calm s₀.allowOverheat e) : engineStep e s = s := by
  have call := h₀.congr h.part
  cases e with
  | overheat =>
    have parameter : s.allowOverheat = s₀.allowOverheat := (congrArg State.allowOverheat h.part :)
    exact engineStep_overheat_of_disabled (.inr (.inl (parameter.trans (calm rfl))))
  | tx =>
    have none : request = false := Bool.eq_false_iff.2 fun on => waiting on rfl
    exact engineStep_of_disabled (by simp [engineEnabled, h.request_eq, none])
  | crcByte | crcDone | rx | timerExpire | resetDone | wakeDone =>
    exact engineStep_of_disabled (by simp [engineEnabled, h.active, h.waits, call.timer_off, call.settled])

/-- The steps that may come before the awaited TX. -/
def BeforeTx (allow : Bool) (e : EngineStep) : Prop := e ≠ .tx ∧ Calm allow e

theorem sending_stage {S : EngineStep → Prop} (h₀ : Callable s₀)
    (admits : ∀ e, S e → (request = true → e ≠ .tx) ∧ Calm s₀.allowOverheat e) : Stage S (Sending s₀ a l q request) where
  step {e s} he h := by
    obtain ⟨waiting, calm⟩ := admits e he
    rw [h.engineStep_eq h₀ waiting calm]
    exact h
  sched _ h := { h with }
  cancels _ h := { h with }
  answered _ h := { h with }
  unmarked h := (h₀.congr h.part).unmarked

theorem unrequested_stage (h₀ : Callable s₀) : Stage (Calm s₀.allowOverheat) (Sending s₀ a l q false) :=
  sending_stage h₀ fun _ calm => ⟨nofun, calm⟩

theorem requested_stage (h₀ : Callable s₀) : Stage (BeforeTx s₀.allowOverheat) (Sending s₀ a l q true) :=
  sending_stage h₀ fun _ he => ⟨fun _ => he.1, he.2⟩

/-- Writing Transceive on the loaded chip (rule R301). -/
theorem Loading.started (h : Loading s₀ 0 a l q s) (h₀ : Callable s₀) :
    Sending s₀ a l q false (registerWrite commandReg 0x0C s) := by
  have call := h₀.congr h.part
  rw [show (0x0C : Byte) = cmdByte false false 0xC from rfl,
    registerWrite_start false call.toCommandReady cmdClass_transceive]
  refine { h with
    active := rfl, waits := rfl, request_eq := rfl, listens := rfl, irq_clear := h.irq_eq, err_clear := ?_ }
  show s.err &&& 0x40 &&& 0x1B = 0
  rw [BitVec.and_assoc]
  exact BitVec.and_zero

/-- The byte of BitFramingReg that holds RxAlign and TxLastBits alone (rule R49). -/
def framingByte (a l : BitVec 3) : Byte := a.setWidth 8 <<< 4 ||| l.setWidth 8

theorem readsAs_framingByte (h : BusReady s) : ReadsAs bitFramingReg 0x77 (framingByte s.rxAlign s.txLastBits) s := by
  refine readsAs_of_shown h (by decide) (by decide) fun _ => ?_
  show (BitVec.ofBool s.startSend ++ s.rxAlign ++ 0#1 ++ s.txLastBits) &&& 0x77 = framingByte _ _
  generalize s.startSend = b, s.rxAlign = a, s.txLastBits = l
  revert b a l
  decide

/-- The byte that SETB writes back: the strobe, and the fields that were read. -/
theorem strobed_fields {b : Byte} (h : b &&& 0x77 = framingByte a l) :
    (b ||| 0x80).getLsbD 7 = true ∧ (b ||| 0x80).extractLsb' 4 3 = a ∧ (b ||| 0x80).extractLsb' 0 3 = l := by
  have fields : ∀ b : Byte, (b ||| 0x80).getLsbD 7 = true ∧
      (b ||| 0x80).extractLsb' 4 3 = (b &&& 0x77).extractLsb' 4 3 ∧
      (b ||| 0x80).extractLsb' 0 3 = (b &&& 0x77).extractLsb' 0 3 := by decide
  have back : ∀ a l : BitVec 3, (framingByte a l).extractLsb' 4 3 = a ∧ (framingByte a l).extractLsb' 0 3 = l := by decide
  obtain ⟨strobe, high, low⟩ := fields b
  rw [h] at high low
  exact ⟨strobe, high.trans (back a l).1, low.trans (back a l).2⟩

/-- Writing StartSend makes the request (rule R308). -/
theorem Sending.requested (h : Sending s₀ a l q false s) (h₀ : Callable s₀) {b : Byte}
    (hb : b &&& 0x77 = framingByte a l) :
    Sending s₀ a l q true (registerWrite bitFramingReg (b ||| 0x80) s) := by
  obtain ⟨strobe, high, low⟩ := strobed_fields hb
  have write : registerWrite bitFramingReg (b ||| 0x80) s = bitFramingWrite true a l s := by
    show bitFramingWrite ((b ||| 0x80).getLsbD 7) _ _ s = _
    rw [strobe, high, low]
  rw [write, bitFramingWrite_waiting a l h.active h.waits (h₀.congr h.part).awake]
  exact { h with request_eq := rfl, align_eq := rfl, lastBits_eq := rfl }

end

/-! ### The operations before the transmission -/

/-- The byte that the call writes to BitFramingReg (rule R330). -/
theorem framing_argument {align bits : Nat} (ha : align ≤ 7) (hb : bits ≤ 7) :
    (BitVec.ofNat 8 (align * 16 + bits)).getLsbD 7 = false ∧
      (BitVec.ofNat 8 (align * 16 + bits)).extractLsb' 4 3 = BitVec.ofNat 3 align ∧
      (BitVec.ofNat 8 (align * 16 + bits)).extractLsb' 0 3 = BitVec.ofNat 3 bits := by
  have all : ∀ a b : Fin 8, (BitVec.ofNat 8 (a.val * 16 + b.val)).getLsbD 7 = false ∧
      (BitVec.ofNat 8 (a.val * 16 + b.val)).extractLsb' 4 3 = BitVec.ofNat 3 a.val ∧
      (BitVec.ofNat 8 (a.val * 16 + b.val)).extractLsb' 0 3 = BitVec.ofNat 3 b.val := by decide
  exact all ⟨align, by omega⟩ ⟨bits, by omega⟩

/-- The call up to StartSend, when the moves before it are its own operations and ENGINE's without OVERHEAT. -/
theorem returns_load {α : Type} {k : HostProg α} {Q : α → State → Prop} {s : State} {data : List Byte} {v : Byte}
    {writes more : List Move} (h : Callable s) (room : data.length ≤ 64) (hv : v.getLsbD 7 = false)
    (sched : s.sched = .host :: (writes ++ .host :: more)) (moves : Moves (Calm s.allowOverheat) (data.length + 5) writes)
    (next : ∀ u, Sending s (v.extractLsb' 4 3) (v.extractLsb' 0 3) data true u → u.sched = more → u.cancels = s.cancels →
      Returns k u Q) :
    Returns (.wr commandReg 0x00 <| .wr comIrqReg 0x7F <| .wr fifoLevelReg 0x80 <| .wr bitFramingReg v <|
      andThen (fifoWrites data) fun _ => .wr commandReg 0x0C <| andThen (setBits bitFramingReg 0x80) fun _ => k) s Q := by
  have phase : enginePhase s = { s with sched := writes ++ .host :: more } := enginePhase_eq (es := []) sched
  have same : callPart (enginePhase s) = callPart s := by
    rw [phase]
    rfl
  have call := h.congr same
  have ready {irq : BitVec 7} {a l : BitVec 3} {q : List Byte} (u : State) (hu : Loading s irq a l q u) : BusReady u :=
    (hu.resting h).toBusReady
  refine returns_wr call.toBusReady call.unmarked ?_
  refine (loading_stage h).returns_wr (rest := .host :: more) (cs := s.cancels) ⟨writes, ?_, ?_, call.stopped same, moves⟩
    ready (fun _ hu => hu.irq_cleared) fun u hu => ?_
  · rw [registerWrite_frame, phase]
  · rw [registerWrite_frame, phase]
  refine (loading_stage h).returns_wr hu ready (fun _ hu => hu.flushed) fun u hu => ?_
  refine (loading_stage h).returns_wr hu ready (fun _ hu => hu.framed hv) fun u hu => ?_
  refine returns_andThen ((Loading.returns_fifoWrites (n := 2) h hu (by simpa using room)).mono fun _ u hu => ?_)
  refine (loading_stage h).returns_wr hu ready (fun _ hu => hu.started h) fun u hu => ?_
  have sending := unrequested_stage (a := v.extractLsb' 4 3) (l := v.extractLsb' 0 3) (q := data) h
  refine sending.returns_rd hu (by decide) (v := framingByte (v.extractLsb' 4 3) (v.extractLsb' 0 3)) (mask := 0x77)
    (fun u hu => ?_) fun b u hb hu => ?_
  · have shows := readsAs_framingByte (h.congr hu.part).toBusReady
    rwa [hu.align_eq, hu.lastBits_eq] at shows
  exact sending.returns_wr_last hu (fun _ hu => (h.congr hu.part).toBusReady) (fun _ hu => hu.requested h hb)
    next

end Sys2Proof.Machine
end

section
/-! The wait of `transceive` (rules R310 to R316, R333 to R335, R531): the transmission, the wait for the reply, and the
silence that only the timer or the budget ends. -/

namespace Sys2Proof.Machine

open Sys2Proof

/-! ### Histories -/

/-- `hist` is `h` and then expiries of the timer alone. -/
def OnlyExpired (h hist : List Event) : Prop := ∃ es : List Event, (∀ e ∈ es, e = .timerExpire) ∧ hist = h ++ es

theorem onlyExpired_self (h : List Event) : OnlyExpired h h := ⟨[], by simp⟩

theorem OnlyExpired.expired {h hist : List Event} (only : OnlyExpired h hist) : OnlyExpired h (hist ++ [.timerExpire]) := by
  obtain ⟨es, hes, rfl⟩ := only
  exact ⟨es ++ [.timerExpire], by simpa [or_imp, forall_and] using hes, by simp⟩

/-! ### After the transmission -/

/-- Transceive waits for the reply `reply`; the reception flags and the history are as given. -/
structure Awaiting (h : List Event) (irq : BitVec 7) (a : BitVec 3) (reply : Option Reply) (allow : Bool) (s : State) :
    Prop extends CommandReady s where
  unmarked : s.refused = none
  active : s.cmd = .transceive
  waits : s.modem = .waitData
  sent : s.txReq = false
  listens : s.rcvOff = false
  pending : s.pendingResp = reply
  empty : s.fifo = []
  align_eq : s.rxAlign = a
  irq_eq : s.comIrq &&& 0x21 = irq
  err_clear : s.err &&& 0x1B = 0
  hist_eq : s.hist = h
  parameter : s.allowOverheat = allow

theorem CommandReady.engineReady {s : State} (h : CommandReady s) : EngineReady s := ⟨h.released, h.settled, h.awake⟩

/-- TX sends the frame, and FIELD's choice is awaited where the antenna is on (rules R310 to R312). -/
theorem Sending.transmitted {s₀ s : State} {a l : BitVec 3} {q : List Byte} (h : Sending s₀ a l q true s)
    (h₀ : Callable s₀) (full : q ≠ []) :
    ∃ choice : Option Reply, (∀ c, s₀.field.head? = some c → choice = c) ∧
      Awaiting (s₀.hist ++ [.tx (assemble q l)]) 0 a (if s₀.txControl &&& 0x03 = 0x03 then choice else none)
        s₀.allowOverheat (engineStep .tx s) := by
  have call := h₀.congr h.part
  have same {α : Type} (f : State → α) : f (callPart s) = f (callPart s₀) := congrArg f h.part
  have field : s.field = s₀.field := same State.field
  have antenna : s.txControl = s₀.txControl := same State.txControl
  obtain ⟨htx, hrx, ht⟩ := (radioAdmitted_iff s).1 call.admitted
  obtain ⟨choice, field', draws', hc⟩ := exists_fieldChoice s
  refine ⟨choice, fun c first => ?_, ?_⟩
  · rw [← field] at first
    obtain ⟨hf, _⟩ | ⟨hf, _⟩ := hc
    · rw [hf] at first
      exact Option.some.inj first
    · rw [hf] at first
      exact nomatch first
  · rw [transmitStep s choice field' draws' call.engineReady h.active h.waits h.request_eq (h.fifo_eq ▸ full) htx hrx ht hc]
    refine { call with
      active := h.active, waits := rfl, sent := rfl, listens := h.listens, empty := rfl, align_eq := h.align_eq
      parameter := same State.allowOverheat, irq_eq := ?irq, err_clear := ?err, pending := ?reply, hist_eq := ?hist }
    case irq =>
      refine (or_alertRise_and _ _ _ _).trans ?_
      rw [BitVec.and_or_distrib_right, h.irq_clear]
      rfl
    case err =>
      have := h.err_clear
      show s.err &&& 0xF0 &&& 0x1B = 0
      rw [BitVec.and_assoc, BitVec.and_comm 0xF0, ← BitVec.and_assoc, this]
      exact BitVec.zero_and
    case reply =>
      simp only [antenna, h.listens, and_true]
    case hist =>
      show s.hist ++ _ = _
      rw [h.fifo_eq, h.lastBits_eq, show s.hist = s₀.hist from same State.hist]

section
variable {h : List Event} {irq : BitVec 7} {a : BitVec 3} {reply : Option Reply} {allow : Bool} {s : State}

/-- Beside the reception and the timer, only OVERHEAT has a step. -/
theorem Awaiting.engineStep_eq (w : Awaiting h irq a reply allow s) {e : EngineStep} (silent : e = .rx → reply = none)
    (quiet : e ≠ .timerExpire) (calm : Calm allow e) : engineStep e s = s := by
  cases e with
  | overheat => exact engineStep_overheat_of_disabled (.inr (.inl (w.parameter.trans (calm rfl))))
  | rx => exact engineStep_of_disabled (by simp [engineEnabled, w.pending, silent rfl])
  | timerExpire => exact absurd rfl quiet
  | crcByte | crcDone | tx | resetDone | wakeDone =>
    exact engineStep_of_disabled (by simp [engineEnabled, w.active, w.sent, w.settled])

/-- An expiry sets TimerIRq (rule R427). -/
theorem Awaiting.expired (w : Awaiting h irq a reply allow s) : engineStep .timerExpire s = s ∨
    Awaiting (h ++ [.timerExpire]) (irq ||| 0x01) a reply allow (engineStep .timerExpire s) := by
  obtain ⟨_, he⟩ | ⟨_, he⟩ := engineStep_cases .timerExpire s
  · rw [he, engineEffect, timerExpireEffect_frame]
    refine .inr { w with irq_eq := ?_, hist_eq := congrArg (· ++ [.timerExpire]) w.hist_eq }
    show (s.comIrq ||| 0x01) &&& 0x21 = _
    rw [BitVec.and_or_distrib_right, w.irq_eq]
    rfl
  · exact .inl he

/-- The wait for a reply, before it and before any expiry. -/
theorem awaiting_stage {S : EngineStep → Prop} (others : ∀ e, S e → e ≠ .rx ∧ e ≠ .timerExpire ∧ Calm allow e) :
    Stage S (Awaiting h irq a reply allow) where
  step {e s} he w := by
    obtain ⟨no_rx, quiet, calm⟩ := others e he
    rw [w.engineStep_eq (fun rx => absurd rx no_rx) quiet calm]
    exact w
  sched _ w := { w with }
  cancels _ w := { w with }
  answered _ w := { w with }
  unmarked w := w.unmarked

/-- No reply comes: RxIRq is never set, and the history grows by expiries alone. -/
def Silent (h : List Event) (a : BitVec 3) (allow : Bool) (s : State) : Prop :=
  ∃ (hist : List Event) (irq : BitVec 7), OnlyExpired h hist ∧ irq &&& 0x20 = 0 ∧ Awaiting hist irq a none allow s

theorem silent_stage : Stage (Calm allow) (Silent h a allow) where
  step := by
    intro e s calm ⟨hist, irq, only, clear, w⟩
    by_cases expires : e = .timerExpire
    · subst expires
      obtain he | w' := w.expired
      · rw [he]
        exact ⟨hist, irq, only, clear, w⟩
      · refine ⟨_, _, only.expired, ?_, w'⟩
        rw [BitVec.and_or_distrib_right, clear]
        rfl
    · rw [w.engineStep_eq (fun _ => rfl) expires calm]
      exact ⟨hist, irq, only, clear, w⟩
  sched := fun _ ⟨hist, irq, only, clear, w⟩ => ⟨hist, irq, only, clear, { w with }⟩
  cancels := fun _ ⟨hist, irq, only, clear, w⟩ => ⟨hist, irq, only, clear, { w with }⟩
  answered := fun _ ⟨hist, irq, only, clear, w⟩ => ⟨hist, irq, only, clear, { w with }⟩
  unmarked := fun ⟨_, _, _, _, w⟩ => w.unmarked

end

/-! ### One turn of the wait (rules R333, R334) -/

/-- The flags of ComIrqReg as HOST reads them. -/
theorem readsAs_comIrq {s : State} (h : BusReady s) : ReadsAs comIrqReg 0xFF (s.comIrq.setWidth 8) s :=
  readsAs_of_shown h (by decide) (by decide) fun _ => and_ff _

/-- What HOST sees of the two reception flags. -/
theorem comIrq_polled (c : BitVec 7) :
    ((c.setWidth 8 : Byte) &&& 0x20 = 0 ↔ c &&& 0x20 = 0) ∧ ((c.setWidth 8 : Byte) &&& 0x01 = 0 ↔ c &&& 0x01 = 0) := by
  revert c
  decide

/-- One turn of the wait whose read of CANCEL gives `false`. -/
theorem returns_awaitReception_succ {I : List Move → State → Prop} (script : Script I) {n : Nat} {rest : List Move}
    {cs : List Bool} {s : State} {Q : Except Status Unit → State → Prop} (h : Ahead I rest (false :: cs) s)
    (usable : ∀ m u, I (.host :: m) u → BusReady u ∧ u.refused = none)
    (next : ∀ m u b, I (.host :: m) u → u.sched = m ++ rest → u.cancels = cs →
      Returns (if u.comIrq &&& 0x20 ≠ 0 then .ret (.ok ()) else
        if u.comIrq &&& 0x01 ≠ 0 then .ret (.error .timeout) else awaitReception n) (answer b u) Q) :
    Returns (awaitReception (n + 1)) s Q := by
  obtain ⟨m, hs, hc, hm⟩ := h
  refine (returns_cancel_iff _ _).2 ?_
  rw [readCancel_of_cons hc]
  obtain ⟨m, hs, hc, hm⟩ := script.phase (s := { s with cancels := cs }) ⟨m, hs, rfl, script.cancels cs hm⟩
  obtain ⟨ready, unmarked⟩ := usable m _ hm
  refine returns_rd unmarked (by decide) (readsAs_comIrq ready) fun b hb => ?_
  rw [and_ff] at hb
  subst hb
  obtain ⟨rx, timer⟩ := comIrq_polled (enginePhase { s with cancels := cs }).comIrq
  simp only [ne_eq, rx, timer]
  exact next m _ _ hm hs hc

/-! ### Silence -/

theorem bits_clear {c : BitVec 7} (h : c &&& 0x21 = 0) : c &&& 0x20 = 0 ∧ c &&& 0x01 = 0 := by
  revert c
  decide

theorem Silent.rxIrq_clear {h : List Event} {a : BitVec 3} {allow : Bool} {s : State} (silent : Silent h a allow s) :
    s.comIrq &&& 0x20 = 0 := by
  obtain ⟨_, irq, _, clear, w⟩ := silent
  have part : s.comIrq &&& 0x20 = s.comIrq &&& 0x21 &&& 0x20 := (BitVec.and_assoc s.comIrq 0x21 0x20).symm
  rw [part, w.irq_eq, clear]

section
variable {s₀ s : State} {a l : BitVec 3} {q : List Byte} {h : List Event} {allow : Bool}
  {rest : List Move} {cs : List Bool}

/-- The wait under silence ends with TIMEOUT: at an expiry that is seen, or when the budget is used up. -/
theorem returns_awaitReception_silent (h₀ : Callable s₀) {budget : Nat}
    (ahead : (budget = 0 ∧ Silent h a allow s) ∨ ∃ p, budget = p + 1 ∧
      Ahead (Until (BeforeTx s₀.allowOverheat) (Sending s₀ a l q true) .tx
        (fun k => During (Calm allow) (Silent h a allow) (k + 1)) p) rest
        (List.replicate (p + 1) false ++ cs) s) :
    Returns (awaitReception budget) s fun r t => r = .error .timeout ∧ Silent h a allow t := by
  have stop {u : State} (hu : Silent h a allow u) : Returns (.ret (.error .timeout : Except Status Unit)) u fun r t =>
      r = .error .timeout ∧ Silent h a allow t := (returns_ret_iff _ _).2 ⟨silent_stage.unmarked hu, rfl, hu⟩
  induction budget generalizing s with
  | zero =>
    obtain ⟨_, silent⟩ | ⟨_, none, _⟩ := ahead
    · exact stop silent
    · exact absurd none (Nat.succ_ne_zero _).symm
  | succ n ih =>
    obtain ⟨none, _⟩ | ⟨p, hp, ahead⟩ := ahead
    · exact absurd none (Nat.succ_ne_zero n)
    obtain rfl : n = p := Nat.succ.inj hp
    have ready {u : State} (hu : Silent h a allow u) : BusReady u ∧ u.refused = none := by
      obtain ⟨_, _, _, _, w⟩ := hu
      exact ⟨w.toBusReady, w.unmarked⟩
    refine returns_awaitReception_succ (Until.script (requested_stage h₀) fun _ => silent_stage.script) ahead
      (fun m u hu => ?_) fun m u b hu hs hc => ?_
    · obtain ⟨hu, _⟩ | ⟨hu, _⟩ := hu.of_host
      · have call := h₀.congr hu.part
        exact ⟨call.toBusReady, call.unmarked⟩
      · exact ready hu
    · obtain ⟨sends, k, rfl, back⟩ | ⟨silent, moves⟩ := hu.of_host
      · obtain ⟨no_rx, no_timer⟩ := bits_clear sends.irq_clear
        rw [if_neg (not_not_intro no_rx), if_neg (not_not_intro no_timer)]
        exact ih (.inr ⟨k, rfl, m, hs, hc, back _ ((requested_stage h₀).answered b sends)⟩)
      · rw [if_neg (not_not_intro silent.rxIrq_clear)]
        have silent' := silent_stage.answered b silent
        split
        · exact stop silent'
        · obtain ⟨k, hk, moves⟩ := moves.of_host
          cases hk
          cases n with
          | zero => exact ih (.inl ⟨rfl, silent'⟩)
          | succ k => exact ih (.inr ⟨k, rfl, m, hs, hc, .after ⟨silent', moves⟩⟩)

end

/-! ### The premises (rule R531) -/

/-- NO_OVERHEAT, of the moves before `rest`. -/
theorem NoOverheat.calm {s : State} {m rest : List Move} (h : NoOverheat s rest) (hs : s.sched = m ++ rest)
    {e : EngineStep} (he : .engine e ∈ m) : Calm s.allowOverheat e := by
  rintro rfl
  refine Bool.eq_false_iff.2 fun on => ?_
  obtain ⟨call, hcall, cool⟩ := h on
  obtain rfl : call = m := List.append_cancel_right (hcall.symm.trans hs)
  exact cool he

/-- The admitted arguments of `transceive` (rule R330). -/
theorem returns_transceive {data : List Byte} {vb : Nat} {o : TransceiveOptions} {s : State}
    {Q : TransceiveResult → State → Prop} {writes more : List Move} (h : Callable s) (some_data : data ≠ [])
    (room : data.length ≤ 64) (bits : vb ≤ 7) (align : o.rxAlign ≤ 7) (sched : s.sched = .host :: (writes ++ .host :: more))
    (moves : Moves (Calm s.allowOverheat) (data.length + 5) writes)
    (ok : ∀ u, Sending s (BitVec.ofNat 3 o.rxAlign) (BitVec.ofNat 3 vb) data true u → u.sched = more →
      u.cancels = s.cancels → Returns (awaitReception (Config.waitBudget o.expectLen)) u fun r t =>
        (r = .ok () ∧ Returns (takeReply o) t Q) ∨ ∃ status, r = .error status ∧ Returns (.ret ⟨status, [], 0⟩) t Q) :
    Returns (transceive data vb o) s Q := by
  obtain ⟨strobe, high, low⟩ := framing_argument align bits
  have in_range : ¬(7 < vb ∨ 7 < o.rxAlign) := by omega
  unfold transceive
  rw [if_neg in_range, if_neg some_data, if_neg (show ¬Config.fifoDepth < data.length from Nat.not_lt.2 room)]
  refine returns_load h room strobe sched moves fun u hu hs hc => ?_
  rw [high, low] at hu
  refine returns_andThen ((ok u hu hs hc).mono fun r t ht => ?_)
  obtain ⟨rfl, next⟩ | ⟨status, rfl, next⟩ := ht <;> exact next

/-- Settles O58: after TX the chip is silent, and the wait ends at an expiry or with its budget. -/
theorem silenceEndsInTimeout : Obligations.SilenceEndsInTimeout := by
  intro data vb polls o wait rest cs s ready unmarked some_data room bits align htx hrx ht timer_off silence cancels prompt
    enough calm
  have h : Callable s := { ready with
    unmarked := unmarked, admitted := (radioAdmitted_iff s).2 ⟨htx, hrx, ht⟩, timer_off := timer_off }
  obtain ⟨writes, before, hs, count, first, polled, intime⟩ := prompt
  have cool {e : EngineStep} (he : .engine e ∈ writes ∨ .engine e ∈ before ∨ .engine e ∈ wait) :
      Calm s.allowOverheat e :=
    calm.calm (m := .host :: writes ++ .host :: before ++ .engine .tx :: wait) (by simp [hs])
      (by obtain he | he | he := he <;> simp [he])
  have silent (u : State) (hu : Sending s (BitVec.ofNat 3 o.rxAlign) (BitVec.ofNat 3 vb) data true u) :
      Silent (s.hist ++ [.tx (assemble data (BitVec.ofNat 3 vb))]) (BitVec.ofNat 3 o.rxAlign) s.allowOverheat
        (engineStep .tx u) := by
    obtain ⟨choice, chosen, w⟩ := hu.transmitted h some_data
    have no_reply : (if s.txControl &&& 0x03 = 0x03 then choice else none) = none := by
      obtain none_chosen | off := silence
      · rw [chosen none none_chosen, ite_self]
      · exact if_neg off
    exact ⟨_, 0, onlyExpired_self _, rfl, no_reply ▸ w⟩
  have run : Returns (transceive data vb o) s fun r t => r = ⟨.timeout, [], 0⟩ ∧
      Silent (s.hist ++ [.tx (assemble data (BitVec.ofNat 3 vb))]) (BitVec.ofNat 3 o.rxAlign) s.allowOverheat t := by
    refine returns_transceive h some_data room bits align (by simpa using hs) ⟨count, fun e he => cool (.inl he)⟩
      fun u hu hus huc => ?_
    obtain ⟨k, hk⟩ : ∃ k, wait.count .host = k + 1 := ⟨wait.count .host - 1, by omega⟩
    have budget : Config.waitBudget o.expectLen = polls + k + 1 := by omega
    have until_tx : Until (BeforeTx s.allowOverheat) (Sending s _ _ data true) .tx
        (fun k => During (Calm s.allowOverheat) (Silent _ _ s.allowOverheat) (k + 1)) (polls + k)
        (before ++ .engine .tx :: wait) u :=
      .before hu ⟨polled, fun e he => ⟨fun tx => first (tx ▸ he), cool (.inr (.inl he))⟩⟩ rfl
        fun v hv => ⟨silent v hv, hk, fun e he => cool (.inr (.inr he))⟩
    rw [budget] at cancels ⊢
    refine (returns_awaitReception_silent h (.inr ⟨_, rfl, _, by simpa using hus, huc.trans cancels,
      until_tx⟩)).mono fun r t ht => ?_
    obtain ⟨rfl, silent⟩ := ht
    exact .inr ⟨_, rfl, (returns_ret_iff _ _).2 ⟨silent_stage.unmarked silent, rfl, silent⟩⟩
  obtain ⟨_, value, rfl, _, _, only, _, w⟩ := run
  obtain ⟨es, expiries, rfl⟩ := only
  exact ⟨value, w.active, es, expiries, by simpa using w.hist_eq⟩

end Sys2Proof.Machine
end

section
/-! The reply of `transceive` (rules R314, R315, R333 to R341, R531): the reception, and HOST's reads after it. -/

namespace Sys2Proof.Machine

open Sys2Proof

/-! ### After the reception -/

/-- The reception is over: the FIFO holds the reply's bytes `q`, ErrorReg's marks are `err` and RxLastBits is `bits`; the
history grows by expiries alone. -/
structure Received (h : List Event) (err : Byte) (q : List Byte) (bits : BitVec 3) (allow : Bool) (s : State) :
    Prop extends CommandReady s where
  unmarked : s.refused = none
  active : s.cmd = .transceive
  no_request : s.txReq = false
  waits : s.modem = .waitStart
  rxIrq_set : s.comIrq &&& 0x20 = 0x20
  err_eq : s.err &&& 0x1B = err
  fifo_eq : s.fifo = q
  lastBits_eq : s.rxLastBits = bits
  history : OnlyExpired h s.hist
  parameter : s.allowOverheat = allow

/-- A request flag that is set stays set when others are. -/
theorem and_or_of_set {c m : BitVec 7} (x : BitVec 7) (h : c &&& m = m) : (c ||| x) &&& m = m := by
  ext i hi
  have bit := congrArg (fun v : BitVec 7 => v[i]) h
  simp only [BitVec.getElem_and, BitVec.getElem_or] at bit ⊢
  cases hm : m[i] <;> simp_all

theorem or_and_of_set {c m : BitVec 7} (x : BitVec 7) (h : c &&& m = m) : (x ||| c) &&& m = m := by
  rw [BitVec.or_comm]
  exact and_or_of_set x h

section
variable {h : List Event} {err : Byte} {q : List Byte} {bits : BitVec 3} {allow : Bool} {s : State}

theorem received_stage : Stage (Calm allow) (Received h err q bits allow) where
  step {e s} calm w := by
    obtain ⟨on, he⟩ | ⟨_, he⟩ := engineStep_cases e s
    · cases e with
      | timerExpire =>
        rw [he, engineEffect, timerExpireEffect_frame]
        exact { w with rxIrq_set := and_or_of_set _ w.rxIrq_set, history := w.history.expired }
      | overheat =>
        have off : s.allowOverheat = false := w.parameter.trans (calm rfl)
        rw [engineStep_overheat_of_disabled (.inr (.inl off))]
        exact w
      | crcByte | crcDone | tx | rx | resetDone | wakeDone =>
        simp [engineEnabled, w.active, w.waits, w.no_request, w.settled] at on
    · rw [he]
      exact w
  sched _ w := { w with }
  cancels _ w := { w with }
  answered _ w := { w with }
  unmarked w := w.unmarked

/-- RX stores a reply without error marks, which fits the FIFO (rules R314, R315). -/
theorem Awaiting.received {irq : BitVec 7} {a : BitVec 3} {r : Reply} (w : Awaiting h irq a (some r) allow s)
    (parity : r.parityErr = false) (protocol : r.protocolErr = false)
    (fits : (receivedBytes s r).length ≤ 64) :
    Received (h ++ [.rx r]) (if r.syms.contains .x then 0x08 else 0) (receivedBytes s r)
      (BitVec.ofNat 3 (a.toNat + r.syms.length)) allow (engineStep .rx s) := by
  obtain ⟨_, _, _, he⟩ := rxEffect_eq w.pending
  have room : ¬64 < s.fifo.length + (receivedBytes s r).length := by
    rw [w.empty, List.length_nil]
    omega
  rw [engineStep_rx w.toCommandReady.engineReady w.active w.waits w.pending w.listens, he]
  refine { w with
    no_request := w.sent, waits := rfl, rxIrq_set := ?irq, err_eq := ?err, fifo_eq := ?fifo, lastBits_eq := ?bits
    history := ?hist }
  case irq => exact and_or_of_set _ (or_and_of_set _ BitVec.and_self)
  case err =>
    simp only [room, parity, protocol]
    have marks : ∀ (e : Byte) (hit : Bool), e &&& 0x1B = 0 →
        (e ||| (if False then 0x10 else 0) ||| (if hit then 0x08 else 0) ||| (if false then 0x02 else 0) |||
          (if false then 0x01 else 0)) &&& 0x1B = if hit then 0x08 else 0 := by decide
    exact marks s.err _ w.err_clear
  case fifo =>
    show s.fifo ++ (receivedBytes s r).take (64 - s.fifo.length) = _
    rw [w.empty, List.length_nil, List.take_of_length_le fits]
    rfl
  case bits =>
    show BitVec.ofNat 3 (s.rxAlign.toNat + r.syms.length) = _
    rw [w.align_eq]
  case hist =>
    show OnlyExpired _ (s.hist ++ [.rx r])
    rw [w.hist_eq]
    exact onlyExpired_self _

/-! ### HOST's reads (rules R336 to R340) -/

/-- HOST's pop takes the oldest byte of the reply. -/
theorem Received.popped {b : Byte} (w : Received h err (b :: q) bits allow s) :
    (hostPop s).busOut = b ∧ Received h err q bits allow (hostPop s) := by
  rw [hostPop_of_cons w.fifo_eq]
  exact ⟨rfl, { w with rxIrq_set := and_or_of_set _ w.rxIrq_set, fifo_eq := rfl }⟩

theorem returns_rd_fifoData {α : Type} {k : Byte → HostProg α} {Q : α → State → Prop} (ready : BusReady (enginePhase s))
    (unmarked : (enginePhase s).refused = none)
    (next : Returns (k (hostPop (enginePhase s)).busOut) (hostPop (enginePhase s)) Q) : Returns (.rd fifoDataReg k) s Q := by
  refine (returns_rd_iff _ _ _).2 ⟨_, transact_of_next unmarked ?_, next⟩
  rw [decodeBus_carrier]
  exact (exec_decodeRead fifoDataReg ready).trans (congrArg Host.Outcome.next (congrFun registerRead_fifoData _))

theorem Received.returns_fifoReads {n : Nat} {rest : List Move} {cs : List Bool}
    (ahead : Ahead (During (Calm allow) (Received h err q bits allow) (q.length + n)) rest cs s) :
    Returns (fifoReads q.length) s fun r t =>
      r = q ∧ Ahead (During (Calm allow) (Received h err [] bits allow) n) rest cs t := by
  induction q generalizing s with
  | nil =>
    rw [List.length_nil, Nat.zero_add] at ahead
    exact (returns_ret_iff _ _).2 ⟨received_stage.unmarked_of_ahead ahead, rfl, ahead⟩
  | cons b q ih =>
    rw [List.length_cons, Nat.succ_add] at ahead
    obtain ⟨m, hs, hc, w, moves⟩ := received_stage.phase ahead
    refine returns_rd_fifoData w.toBusReady w.unmarked ?_
    obtain ⟨answered, popped⟩ := w.popped
    rw [answered]
    have rest := ih ⟨m, by rw [hostPop_frame]; exact hs, by rw [hostPop_frame]; exact hc, popped, moves⟩
    refine returns_andThen (rest.mono fun r t ht => ?_)
    obtain ⟨hr, left⟩ := ht
    exact (returns_ret_iff _ _).2 ⟨received_stage.unmarked_of_ahead left, congrArg (b :: ·) hr, left⟩

/-- ErrorReg shows the marks of a reception (rules R42, R336). -/
theorem readsAs_receptionMarks (h : BusReady s) : ReadsAs errorReg 0x1B (s.err &&& 0x1B) s :=
  readsAs_of_shown h (by decide) (by decide) fun _ => rfl

theorem checkReplyCrc_invalid {recv : List Byte} {vb : Nat} (h : recv.length < 2 ∨ vb ≠ 0) :
    checkReplyCrc recv vb = .ret ⟨.invalid, recv, vb⟩ := by
  unfold checkReplyCrc
  by_cases short : recv.length < 2
  · exact if_pos short
  · rw [if_neg short, if_pos (h.resolve_left short)]

/-- The status that rules R337 to R339 give a reply without a CRC to compute. -/
def replyStatus (o : TransceiveOptions) (hit : Bool) (q : List Byte) (bits : Nat) : Status :=
  if hit then .collision else if o.checkCrc = true ∧ (q.length < 2 ∨ bits ≠ 0) then .invalid else .ok

/-- Steps 5 to 7 (rules R336 to R340) on a reply without error marks, but for a check that computes a CRC. -/
theorem Received.returns_takeReply {o : TransceiveOptions} {hit : Bool} {rest : List Move} {cs : List Bool}
    (ahead : Ahead (During (Calm allow) (Received h (if hit then 0x08 else 0) q bits allow) (q.length + 3)) rest cs s)
    (room : q.length ≤ 64)
    (no_crc : o.checkCrc = false ∨ hit = true ∨ o.checkCrc = true ∧ (q.length < 2 ∨ bits.toNat ≠ 0)) :
    Returns (takeReply o) s fun r t => r = ⟨replyStatus o hit q bits.toNat, q, bits.toNat⟩ ∧ OnlyExpired h t.hist := by
  have stage {q : List Byte} := received_stage (h := h) (err := if hit then 0x08 else 0) (q := q) (bits := bits)
    (allow := allow)
  refine stage.returns_rd (n := q.length + 2) ahead (by decide) (fun u w => ?_) (mask := 0x1B)
    (v := if hit then 0x08 else 0) fun e u he ahead => ?_
  · rw [← w.err_eq]
    exact readsAs_receptionMarks w.toBusReady
  have marks : ∀ (e : Byte) (hit : Bool), e &&& 0x1B = (if hit then 0x08 else 0) →
      e &&& 0x13 = 0 ∧ (e &&& 0x08 ≠ 0 ↔ hit = true) := by decide
  obtain ⟨no_error, collided⟩ := marks e hit he
  rw [if_neg (not_not_intro no_error)]
  refine stage.returns_rd (n := q.length + 1) ahead (by decide) (fun u w => ?_) (mask := 0xFF)
    (v := BitVec.ofNat 8 q.length) fun f u hf ahead => ?_
  · rw [← w.fifo_eq]
    exact readsAs_fifoLevel w.toBusReady (w.fifo_eq ▸ room)
  have level : (f &&& 0x7F).toNat = q.length := by
    rw [and_ff] at hf
    rw [hf]
    have low : ∀ n : Fin 65, (BitVec.ofNat 8 n.val &&& 0x7F).toNat = n.val := by decide
    exact low ⟨q.length, by omega⟩
  rw [level]
  refine returns_andThen ((returns_fifoReads (n := 1) ahead).mono fun recv u hu => ?_)
  obtain ⟨rfl, left⟩ := hu
  refine stage.returns_rd (n := 0) left (by decide) (fun u w => ?_) (mask := 0xC7)
    (v := bits.setWidth 8) fun c u hc ahead => ?_
  · rw [← w.lastBits_eq]
    exact readsAs_control w.toBusReady
  have last : (c &&& 0x07).toNat = bits.toNat := by
    have low : c &&& 0x07 = c &&& 0xC7 &&& 0x07 := (BitVec.and_assoc c 0xC7 0x07).symm
    have narrow : ∀ x : BitVec 3, (x.setWidth 8 &&& 0x07 : Byte).toNat = x.toNat := by decide
    rw [low, hc, narrow]
  obtain ⟨_, _, _, w, _⟩ := ahead
  dsimp only
  rw [last]
  by_cases hx : hit = true
  · rw [if_pos (collided.2 hx)]
    exact (returns_ret_iff _ _).2 ⟨w.unmarked, by rw [replyStatus, if_pos hx], w.history⟩
  · rw [if_neg (mt collided.1 hx)]
    by_cases check : o.checkCrc = true
    · have invalid : recv.length < 2 ∨ bits.toNat ≠ 0 := by simpa [check, hx] using no_crc
      rw [if_pos check, checkReplyCrc_invalid invalid]
      exact (returns_ret_iff _ _).2 ⟨w.unmarked, by rw [replyStatus, if_neg hx, if_pos ⟨check, invalid⟩], w.history⟩
    · rw [if_neg check]
      exact (returns_ret_iff _ _).2 ⟨w.unmarked, by rw [replyStatus, if_neg hx, if_neg fun c => check c.1], w.history⟩

end

/-! ### The wait -/

/-- `q` holds the received symbols from bit `align` on, as far as the first collision (rules R304, R314). -/
def Carries (align : Nat) (r : Reply) (q : List Byte) : Prop :=
  q.length = (align + r.syms.length + 7) / 8 ∧
  ∀ (k : Nat) (y : Sys2Proof.Sym), r.syms[k]? = some y → Sys2Proof.Sym.x ∉ r.syms.take (k + 1) →
    ∃ b : Byte, q[(align + k) / 8]? = some b ∧ b.getLsbD ((align + k) % 8) = (y == .one)

theorem receivedBytes_carries (s : State) (r : Reply) : Carries s.rxAlign.toNat r (receivedBytes s r) := by
  refine ⟨receivedBytes_length s r, fun k y hy clean => ?_⟩
  obtain ⟨_, order⟩ := receivedBitsStandInOrder s r
  obtain ⟨b, hb, _, bit⟩ := order k y hy
  refine ⟨b, hb, bit (.inr clean) fun collided => clean ?_⟩
  rw [← collided]
  exact List.mem_of_getElem? (i := k) (by rw [List.getElem?_take_of_lt (Nat.lt_succ_self k), hy])

/-- The reply `r` has been received on top of the history `h`. -/
def Replied (h : List Event) (a : BitVec 3) (r : Reply) (allow : Bool) (s : State) : Prop :=
  ∃ q, Carries a.toNat r q ∧ Received (h ++ [.rx r]) (if r.syms.contains .x then 0x08 else 0) q
    (BitVec.ofNat 3 (a.toNat + r.syms.length)) allow s

theorem replied_stage {h : List Event} {a : BitVec 3} {r : Reply} {allow : Bool} :
    Stage (Calm allow) (Replied h a r allow) := .exists fun _ => received_stage

theorem Awaiting.replied {h : List Event} {a : BitVec 3} {r : Reply} {allow : Bool} {s : State}
    (w : Awaiting h 0 a (some r) allow s) (parity : r.parityErr = false) (protocol : r.protocolErr = false)
    (fits : (a.toNat + r.syms.length + 7) / 8 ≤ 64) : Replied h a r allow (engineStep .rx s) := by
  have carries := receivedBytes_carries s r
  rw [w.align_eq] at carries
  exact ⟨_, carries, w.received parity protocol (carries.1 ▸ fits)⟩

/-- The steps that may come between TX and the awaited RX. -/
def BeforeRx (allow : Bool) (e : EngineStep) : Prop := e ≠ .rx ∧ e ≠ .timerExpire ∧ Calm allow e

/-- The wait for the reply `r` to the frame of `q`: TX comes, then RX, and HOST has `n` moves more than the one that sees
it. -/
def ReplyWait (s₀ : State) (a l : BitVec 3) (q : List Byte) (r : Reply) (n p : Nat) : List Move → State → Prop :=
  Until (BeforeTx s₀.allowOverheat) (Sending s₀ a l q true) .tx
    (Until (BeforeRx s₀.allowOverheat) (Awaiting (s₀.hist ++ [.tx (assemble q l)]) 0 a (some r) s₀.allowOverheat) .rx
      fun _ => During (Calm s₀.allowOverheat) (Replied (s₀.hist ++ [.tx (assemble q l)]) a r s₀.allowOverheat) (n + 1)) p

section
variable {s₀ s : State} {a l : BitVec 3} {q : List Byte} {r : Reply} {rest : List Move} {cs : List Bool} {n p budget : Nat}

theorem replyWait_script (h₀ : Callable s₀) : Script (ReplyWait s₀ a l q r n p) :=
  Until.script (requested_stage h₀) fun _ => Until.script (awaiting_stage fun _ he => he) fun _ => replied_stage.script

/-- At a move of HOST the reply has come, or the flags are clear and a move fewer is left. -/
theorem ReplyWait.of_host (h₀ : Callable s₀) {m : List Move} (h : ReplyWait s₀ a l q r n p (.host :: m) s) :
    (CommandReady s ∧ s.refused = none) ∧
      ((s.comIrq &&& 0x21 = 0 ∧ ∃ k, p = k + 1 ∧ ∀ b, ReplyWait s₀ a l q r n k m (answer b s)) ∨
        During (Calm s₀.allowOverheat) (Replied (s₀.hist ++ [.tx (assemble q l)]) a r s₀.allowOverheat) n m s) := by
  obtain ⟨w, k, fewer, back⟩ | h := Until.of_host h
  · have call := h₀.congr w.part
    exact ⟨⟨call.toCommandReady, call.unmarked⟩,
      .inl ⟨w.irq_clear, k, fewer, fun b => back _ ((requested_stage h₀).answered b w)⟩⟩
  obtain ⟨w, k, fewer, back⟩ | ⟨w, moves⟩ := h.of_host
  · exact ⟨⟨w.toCommandReady, w.unmarked⟩, .inl ⟨w.irq_eq, k, fewer, fun b => .after (back _ { w with })⟩⟩
  · obtain ⟨k, hk, moves⟩ := moves.of_host
    cases hk
    have received := w
    obtain ⟨_, _, received⟩ := received
    exact ⟨⟨received.toCommandReady, received.unmarked⟩, .inr ⟨w, moves⟩⟩

/-- The wait ends with RxIRq, when TX and RX come before the budget runs out. -/
theorem returns_awaitReception_reply (h₀ : Callable s₀)
    (ahead : Ahead (ReplyWait s₀ a l q r n p) rest (List.replicate (p + 1) false ++ cs) s) (intime : p < budget) :
    Returns (awaitReception budget) s fun v t => v = .ok () ∧ ∃ cs', Ahead (During (Calm s₀.allowOverheat)
      (Replied (s₀.hist ++ [.tx (assemble q l)]) a r s₀.allowOverheat) n) rest cs' t := by
  induction budget generalizing p s with
  | zero => omega
  | succ budget ih =>
    refine returns_awaitReception_succ (replyWait_script h₀) ahead (fun m u hu => ?_) fun m u b hu hs hc => ?_
    · obtain ⟨⟨ready, unmarked⟩, _⟩ := hu.of_host h₀
      exact ⟨ready.toBusReady, unmarked⟩
    · obtain ⟨⟨_, unmarked⟩, ⟨clear, k, rfl, back⟩ | ⟨replied, moves⟩⟩ := hu.of_host h₀
      · obtain ⟨no_rx, no_timer⟩ := bits_clear clear
        rw [if_neg (not_not_intro no_rx), if_neg (not_not_intro no_timer)]
        exact ih ⟨m, hs, hc, back b⟩ (by omega)
      · have received : u.comIrq &&& 0x20 ≠ 0 := by
          obtain ⟨_, _, w⟩ := replied
          rw [w.rxIrq_set]
          decide
        rw [if_pos received]
        exact (returns_ret_iff _ _).2 ⟨unmarked, rfl, _, m, hs, hc, replied_stage.answered b replied, moves⟩

end

/-! ### The call -/

/-- The premises PROMPT_TX and PROMPT_REPLY give the wait, once the request is made. -/
theorem replyWait_of_moves {s u : State} {a l : BitVec 3} {q : List Byte} {r : Reply} {n polls sentPolls : Nat}
    {before between reads : List Move} (h : Callable s) (w : Sending s a l q true u) (full : q ≠ [])
    (antenna : s.txControl &&& 0x03 = 0x03) (field : s.field.head? = some (some r)) (parity : r.parityErr = false)
    (protocol : r.protocolErr = false) (fits : (a.toNat + r.syms.length + 7) / 8 ≤ 64)
    (sent : Moves (BeforeTx s.allowOverheat) sentPolls before)
    (waited : Moves (BeforeRx s.allowOverheat) (between.count .host) between)
    (total : sentPolls + between.count .host = polls) (left : Moves (Calm s.allowOverheat) (n + 1) reads) :
    ReplyWait s a l q r n polls (before ++ .engine .tx :: (between ++ .engine .rx :: reads)) u := by
  refine .before w sent total fun v hv => ?_
  obtain ⟨choice, chosen, awaiting⟩ := hv.transmitted h full
  rw [if_pos antenna, chosen _ field] at awaiting
  exact .before awaiting waited (Nat.add_zero _) fun t ht => ⟨ht.replied parity protocol fits, left⟩

/-- Settles O57: TX, the wait for RX, and the reads that take the reply, whatever ENGINE does in between. -/
theorem transceiveReturnsTheReply : Obligations.TransceiveReturnsTheReply := by
  intro data vb polls o r fs cs rest s ready unmarked some_data room bits align antenna htx hrx ht timer_off parity protocol
    n left invalid fits no_crc field cancels prompt calm
  have h : Callable s := { ready with
    unmarked := unmarked, admitted := (radioAdmitted_iff s).2 ⟨htx, hrx, ht⟩, timer_off := timer_off }
  obtain ⟨sentPolls, between, reads, ⟨writes, before, hs, count, first, polled, _⟩, once, quiet, total, intime,
    reads_count⟩ := prompt
  have cool {e : EngineStep} (he : .engine e ∈ writes ∨ .engine e ∈ before ∨ .engine e ∈ between ∨ .engine e ∈ reads) :
      Calm s.allowOverheat e :=
    calm.calm (m := .host :: writes ++ .host :: before ++ .engine .tx :: (between ++ .engine .rx :: reads)) (by simp [hs])
      (by obtain he | he | he | he := he <;> simp [he])
  have offset : (BitVec.ofNat 3 o.rxAlign).toNat = o.rxAlign := by
    rw [BitVec.toNat_ofNat]
    omega
  have run : Returns (transceive data vb o) s fun v t => ∃ q, Carries o.rxAlign r q ∧
      v = ⟨replyStatus o (r.syms.contains .x) q left, q, left⟩ ∧
      OnlyExpired (s.hist ++ [.tx (assemble data (BitVec.ofNat 3 vb))] ++ [.rx r]) t.hist := by
    refine returns_transceive h some_data room bits align (by simpa using hs) ⟨count, fun e he => cool (.inl he)⟩
      fun u hu hus huc => ?_
    have wait : ReplyWait s (BitVec.ofNat 3 o.rxAlign) (BitVec.ofNat 3 vb) data r (n + 3) polls
        (before ++ .engine .tx :: (between ++ .engine .rx :: reads)) u :=
      replyWait_of_moves h hu some_data antenna (by rw [field]; rfl) parity protocol (by rw [offset]; exact fits)
        ⟨polled, fun e he => ⟨fun tx => first (tx ▸ he), cool (.inr (.inl he))⟩⟩
        ⟨rfl, fun e he => ⟨fun rx => once (rx ▸ he), fun exp => quiet (exp ▸ he), cool (.inr (.inr (.inl he)))⟩⟩
        total ⟨reads_count, fun e he => cool (.inr (.inr (.inr he)))⟩
    refine (returns_awaitReception_reply h ⟨_, by simpa using hus, huc.trans cancels, wait⟩ intime).mono
      fun v t ht => .inl ?_
    obtain ⟨hv, _, m, hm, hc, ⟨q, carries, received⟩, moves⟩ := ht
    rw [offset] at carries received
    have last : (BitVec.ofNat 3 (o.rxAlign + r.syms.length)).toNat = left := BitVec.toNat_ofNat _ 3
    have length : q.length = n := carries.1
    refine ⟨hv, (Received.returns_takeReply ⟨m, hm, hc, received, length ▸ moves⟩ (length ▸ fits) ?_).mono
      fun v t ht => ?_⟩
    · rw [last, length]
      exact no_crc.imp_right (Or.imp_left List.contains_iff_mem.2)
    · rw [last] at ht
      exact ⟨q, carries, ht⟩
  obtain ⟨v, value, q, ⟨length, bitwise⟩, rfl, es, expiries, hist⟩ := run
  refine ⟨q, ?_, length, bitwise, es, expiries, by simpa using hist⟩
  rw [value, replyStatus, length]
  simp only [List.contains_iff_mem, invalid, n, left]

end Sys2Proof.Machine
end

section
/-! The timer's expiry (rules R427, R431): when it has a step, and its two outcomes. -/

namespace Sys2Proof.Machine

open Sys2Proof

theorem engineEnabled_timerExpire (s : State) :
    engineEnabled .timerExpire s = true ↔ EngineReady s ∧ s.tRunning = true := by
  simp only [engineEnabled, Bool.and_eq_true, engineRuns_iff]

theorem engineStep_timerExpire {s : State} (h : EngineReady s) (hr : s.tRunning = true) :
    engineStep .timerExpire s = timerExpireEffect s :=
  engineStep_of_enabled ((engineEnabled_timerExpire s).2 ⟨h, hr⟩)

theorem engineStep_timerExpire_of_off {s : State} (off : s.tRunning = false ∨ ¬EngineReady s) :
    engineStep .timerExpire s = s := by
  refine engineStep_of_disabled (Bool.eq_false_iff.2 fun on => ?_)
  obtain ⟨ready, running⟩ := (engineEnabled_timerExpire s).1 on
  obtain stopped | not_ready := off
  · exact Bool.noConfusion (stopped.symm.trans running)
  · exact not_ready ready

theorem timerExpireEffect_of_restart {s : State} (h : s.tMode.getLsbD 4 = true) :
    timerExpireEffect s = { s with
      comIrq := s.comIrq ||| 0x01, hist := s.hist ++ [.timerExpire], tCounter := s.tReload } :=
  if_pos h

theorem timerExpireEffect_of_stop {s : State} (h : s.tMode.getLsbD 4 = false) :
    timerExpireEffect s = { s with
      comIrq := s.comIrq ||| 0x01, hist := s.hist ++ [.timerExpire], tCounter := 0, tRunning := false } :=
  if_neg (Bool.eq_false_iff.1 h)

/-- Settles O29, by TAutoRestart where the step is enabled. -/
theorem timerExpires : Obligations.TimerExpires := by
  refine ⟨fun _ off => engineStep_timerExpire_of_off off,
    fun s h => ⟨fun running restart => ?_, fun running stop => ?_⟩⟩
  · rw [engineStep_timerExpire h running, timerExpireEffect_of_restart restart]
  · rw [engineStep_timerExpire h running, timerExpireEffect_of_stop stop]

end Sys2Proof.Machine
end

section
/-! What clears an error flag (rules R410, R412): a step or an operation either sets flags beside those that stand, or
it is one of the named events and masks them. -/

namespace Sys2Proof.Machine

open Sys2Proof

/-! ### Flags kept -/

/-- Flags set beside those that stand clear none. -/
theorem or_and_kept (x m k : Byte) : (x ||| m) &&& (x &&& k) = x &&& k := by
  ext i
  simp +contextual

theorem or_and_self_kept (x m : Byte) : (x ||| m) &&& x = x := by
  have kept := or_and_kept x m 0xFF
  rwa [and_ff] at kept

/-- A mask keeps the flags `k` that lie within it. -/
theorem and_and_kept (x : Byte) {m k : Byte} (h : m &&& k = k) : (x &&& m) &&& (x &&& k) = x &&& k := by
  rw [BitVec.and_comm x m, BitVec.and_assoc, ← BitVec.and_assoc x x, BitVec.and_self, BitVec.and_comm x k,
    ← BitVec.and_assoc, h]

/-! ### The steps of ENGINE -/

theorem txEffect_err (s : State) : (txEffect s).err = s.err ∨ (txEffect s).err = s.err &&& 0xF0 := by
  unfold txEffect
  split
  · exact .inl rfl
  · split
    · exact .inl rfl
    · refine .inr ?_
      rw [withAlerts_eq, awaitReply_frame]
      rfl

theorem rxEffect_err (s : State) : ∃ m, (rxEffect s).err = s.err ||| m := by
  cases h : s.pendingResp with
  | none => exact ⟨0, by simp [rxEffect, h]⟩
  | some r =>
    obtain ⟨_, _, _, he⟩ := rxEffect_eq h
    rw [he]
    simp only [BitVec.or_assoc]
    exact ⟨_, rfl⟩

/-- Of ENGINE's steps but RESET_DONE, TX alone clears error flags, those of receiver start-up (rule R412 (b)). -/
theorem engineStep_err (s : State) {e : EngineStep} (h : e ≠ .resetDone) :
    (∃ m, (engineStep e s).err = s.err ||| m) ∨ (e = .tx ∧ (engineStep e s).err = s.err &&& 0xF0) := by
  have kept : s.err = s.err ||| 0 := BitVec.or_zero.symm
  obtain ⟨_, he⟩ | ⟨_, he⟩ := engineStep_cases e s <;> rw [he]
  · cases e with
    | crcByte => exact .inl ⟨0, by rw [engineEffect, crcByteEffect_frame]; exact kept⟩
    | timerExpire => exact .inl ⟨0, by rw [engineEffect, timerExpireEffect_frame]; exact kept⟩
    | crcDone | wakeDone => exact .inl ⟨0, kept⟩
    | overheat => exact .inl ⟨tempErr, rfl⟩
    | rx => exact .inl (rxEffect_err s)
    | tx => exact (txEffect_err s).imp (fun same => ⟨0, same.trans kept⟩) fun masked => ⟨rfl, masked⟩
    | resetDone => exact absurd rfl h
  · exact .inl ⟨0, kept⟩

/-! ### Writes of CommandReg (rules R203, R412 (a)) -/

theorem startCommandEngine_err (c : Cmd) (s : State) : (startCommandEngine c s).err = s.err := by
  cases c with
  | calcCrc =>
    unfold startCommandEngine startCalcCrc
    dsimp only
    split <;> rfl
  | idle | transceive | softReset => rfl

theorem writeCommandCode_err (c : BitVec 4) (s : State) :
    (writeCommandCode c s).err = s.err ∨
      ((∃ k, cmdClass c = .start k) ∧ (writeCommandCode c s).err = s.err &&& 0x40) := by
  unfold writeCommandCode
  cases cmdClass c with
  | noCmdChange | reserved | outsideTheBlock => exact .inl rfl
  | start k => exact .inr ⟨⟨k, rfl⟩, startCommandEngine_err k _⟩

theorem commandWhilePoweredDown_err (p : Bool) (c : BitVec 4) (s : State) :
    (commandWhilePoweredDown p c s).err = s.err := by
  unfold commandWhilePoweredDown
  split
  · rfl
  · split <;> rfl

theorem enterPowerDown_err (c : BitVec 4) (s : State) : (enterPowerDown c s).err = s.err := by
  unfold enterPowerDown
  dsimp only
  split
  · rfl
  · split <;> rfl

/-- A write of CommandReg clears error flags where it starts a command, and no others. -/
theorem commandWrite_err (r p : Bool) (c : BitVec 4) (s : State) :
    (commandWrite r p c s).err = s.err ∨
      (s.powerDown = false ∧ p = false ∧ (∃ k, cmdClass c = .start k) ∧
        (commandWrite r p c s).err = s.err &&& 0x40) := by
  cases hd : s.powerDown with
  | true => exact .inl (by rw [commandWrite_asleep r p c hd]; exact commandWhilePoweredDown_err p c _)
  | false =>
    cases p with
    | true => exact .inl (by rw [commandWrite_powerDown r c hd]; exact enterPowerDown_err c _)
    | false =>
      rw [commandWrite_awake r c hd]
      exact (writeCommandCode_err c (setRcvOff r s)).imp id fun ⟨starts, masked⟩ => ⟨rfl, rfl, starts, masked⟩

/-- The command rows start a command where the plain write of their byte does. -/
theorem startsCommand_decodeWrite (v : Byte) :
    startsCommand (decodeWrite commandReg v) = startsCommand (.wr commandReg v) := by
  revert v
  decide

theorem code_of_cmdClass_start {c : BitVec 4} {k : Cmd} (h : cmdClass c = .start k) :
    [0x0#4, 0x3#4, 0xC#4, 0xF#4].contains c = true := by
  cases k <;> revert c <;> decide

/-- A write of CommandReg with PowerDown = 0 and the code of a command starts one. -/
theorem IsWriteOf.startsCommand_true {v : Byte} {i : Instr} {k : Cmd} (row : IsWriteOf commandReg v i)
    (on : v.getLsbD 4 = false) (starts : cmdClass (v.extractLsb' 0 4) = .start k) : startsCommand i = true := by
  have plain : startsCommand (.wr commandReg v) = true := by
    rw [startsCommand, on, code_of_cmdClass_start starts]
    rfl
  obtain rfl | rfl := row
  · exact plain
  · exact (startsCommand_decodeWrite v).trans plain

/-! ### Bus writes -/

theorem hostPush_err (b : Byte) (s : State) : ∃ m, (hostPush b s).err = s.err ||| m := by
  obtain room | full := Nat.lt_or_ge s.fifo.length 64
  · rw [hostPush_of_room b room]
    exact ⟨_, rfl⟩
  · rw [hostPush_of_full b full]
    simp only [BitVec.or_assoc]
    exact ⟨_, rfl⟩

theorem regAt_fifoLevel (a : RegAddr) : regAt a = .fifoLevel ↔ a = fifoLevelReg := by revert a; decide

/-- The operation flushes the FIFO: a write of FIFOLevelReg with bit 7 set (rule R208). -/
def FlushesFifo (i : Instr) : Prop :=
  (∃ x, i = .flushBuffer x) ∨ ∃ d : Byte, d.getLsbD 7 = true ∧ i = .wr 0x0A d

theorem decodeWrite_flush {v : Byte} (h : v.getLsbD 7 = true) :
    decodeWrite fifoLevelReg v = .flushBuffer (v.extractLsb' 0 7) := by
  show (if fifoLevelReg = 0x0A ∧ v.getLsbD 7 = true then _ else _) = _
  rw [if_pos ⟨rfl, h⟩]

theorem IsWriteOf.flushesFifo {v : Byte} {i : Instr} (row : IsWriteOf fifoLevelReg v i) (hv : v.getLsbD 7 = true) :
    FlushesFifo i := by
  obtain plain | decoded := row
  · exact .inr ⟨v, hv, plain⟩
  · exact .inl ⟨v.extractLsb' 0 7, decoded.trans (decodeWrite_flush hv)⟩

/-- What an operation of HOST but the release of the reset pin can do to the error flags (rule R412). -/
inductive ErrEffect (i : Instr) (s t : State) : Prop where
  | raised (m : Byte) (h : t.err = s.err ||| m)
  | commandStarted (starts : startsCommand i = true) (ready : CommandReady s) (h : t.err = s.err &&& 0x40)
  | flushed (row : FlushesFifo i) (h : t.err = s.err &&& 0xEF)

theorem ErrEffect.of_eq {i : Instr} {s t : State} (h : t.err = s.err) : ErrEffect i s t :=
  .raised 0 (h.trans BitVec.or_zero.symm)

theorem IsWriteOf.errEffect {a : RegAddr} {v : Byte} {i : Instr} {s : State} (row : IsWriteOf a v i)
    (ready : BusReady s) : ErrEffect i s (registerWrite a v s) := by
  unfold registerWrite
  cases hr : regAt a with
  | command =>
    obtain rfl := (regAt_command a).1 hr
    obtain same | ⟨awake, on, ⟨_, starts⟩, masked⟩ := commandWrite_err _ (v.getLsbD 4) (v.extractLsb' 0 4) s
    · exact .of_eq same
    · exact .commandStarted (row.startsCommand_true on starts) ⟨ready, awake⟩ masked
  | fifoData =>
    obtain ⟨m, raised⟩ := hostPush_err v s
    exact .raised m raised
  | fifoLevel =>
    obtain rfl := (regAt_fifoLevel a).1 hr
    dsimp only
    split
    next hv => exact .flushed (row.flushesFifo hv) (by rw [hostFlush_eq])
    next => exact .of_eq rfl
  | control => exact .of_eq (by dsimp only; rw [controlWrite_frame])
  | bitFraming => exact .of_eq (by dsimp only; rw [bitFramingWrite_frame])
  | comIEn | divIEn | comIrq | divIrq | status2 | waterLevel | coll | mode | txMode | rxMode | txControl | txASK | tMode
  | tPrescaler | tReloadH | tReloadL | outside | error | status1 | crcResultH | crcResultL | tCounterH | tCounterL
  | version | outsideReadOnly | reserved => exact .of_eq rfl

/-! ### The operations of HOST -/

theorem QuietEffect.err_eq {s t : State} (q : QuietEffect s t) : t.err = s.err := by
  cases q with
  | popped => rw [hostPop_frame]
  | ignored | refused | answered | pinPolled => rfl

theorem exec_errEffect {i : Instr} {s t : State} (h : exec i s = .next t) (hr : i ≠ .releaseReset) :
    ErrEffect i s t := by
  cases exec_rowEffect h with
  | wrote a v row ready => exact row.errEffect ready
  | resetAsserted => exact .of_eq rfl
  | resetReleased row => exact absurd row hr
  | quiet q => exact .of_eq q.err_eq

/-- Settles O24, by what a step and what an operation can do to the error flags. -/
theorem onlyTheNamedEventsClearErrorFlags : Obligations.OnlyTheNamedEventsClearErrorFlags := by
  refine ⟨fun e s hr => ?engine, fun e s hr ht => ?no_start_up, fun i s t h hr => ?temp_err,
    fun i s t h hr hc => ?no_start, fun i s t h hr hc hx hw => ?no_event⟩
  case engine =>
    obtain ⟨m, he⟩ | ⟨_, he⟩ := engineStep_err s hr <;> rw [he]
    · exact or_and_kept _ m _
    · exact and_and_kept _ (by decide)
  case no_start_up =>
    obtain ⟨m, he⟩ | ⟨tx, _⟩ := engineStep_err s hr
    · rw [he]
      exact or_and_self_kept _ m
    · exact absurd tx ht
  case temp_err =>
    cases exec_errEffect h hr with
    | raised m he => rw [he]; exact or_and_kept _ m _
    | commandStarted _ _ he | flushed _ he => rw [he]; exact and_and_kept _ (by decide)
  case no_start =>
    cases exec_errEffect h hr with
    | raised m he => rw [he]; exact or_and_kept _ m _
    | commandStarted starts ready => exact absurd ⟨starts, ready⟩ hc
    | flushed _ he => rw [he]; exact and_and_kept _ (by decide)
  case no_event =>
    cases exec_errEffect h hr with
    | raised m he => rw [he]; exact or_and_self_kept _ m
    | commandStarted starts ready => exact absurd ⟨starts, ready⟩ hc
    | flushed row =>
      obtain ⟨x, rfl⟩ | ⟨d, hd, rfl⟩ := row
      · exact absurd rfl (hx x)
      · exact absurd rfl (hw d hd)

end Sys2Proof.Machine
end
